-- ==== Sys2Proof/Word.lean ====
section
/-! DEFINITION. The widths of the walker's values (spec/00_scope.md R6, R8, R11): plain names, no operation. -/

namespace Sys2Proof

/-- One byte of memory. -/
abbrev Byte := BitVec 8

/-- `Word64` of R11: a virtual address, a descriptor, a table base, an output address. -/
abbrev Word64 := BitVec 64

/-- `Index` of R11: the number of a slot in a table, 0 to 511. -/
abbrev Index := BitVec 9

/-- `Offset` of R11: a byte offset within the 4KB page. -/
abbrev Offset := BitVec 12

/-- `Level` of R11: 0, 1, 2, 3 (a 2-bit operand, so no other level can be expressed, D23). -/
abbrev Level := Fin 4

/-- The `REQ` record as one word (R92). -/
abbrev ReqWord := BitVec 128

/-- The `RDREQ` record as one word (R97). -/
abbrev RdReqWord := BitVec 73

/-- Four like things, one a level: the index registers, the slots of the trace (R20). -/
structure Quad (α : Type) where
  at0 : α
  at1 : α
  at2 : α
  at3 : α
  deriving DecidableEq, Repr

end Sys2Proof
end

