-- ==== Sys2Proof/Config.lean ====
section
/-! DEFINITION. What is fixed for a machine: the constants of spec/00_scope.md R6, and the open parameters of R7 as plain
data. The parameters stand in State (`State.params`), so that every statement holds for every value of them; no step writes them
(log entry 9). -/

namespace Sys2Proof

/-- `OA_MASK` (R6): keeps bits 47:12, the output address. -/
def Config.oaMask : Word64 := 0x0000FFFFFFFFF000#64

/-- Bytes of a table slot (`ENTRY_BITS` / 8, R6). -/
def Config.slotBytes : Nat := 8

/-- `N_WALKERS` (R7), the spec's default; DESIGN CHOICE of the spec (D16), log entry 20. -/
def Config.nWalkers : Nat := 1

/-- `BYTE_ORDER` (R7): how the memory reader makes 8 bytes into a value. TTW has no byte order itself (R53). -/
inductive ByteOrder where
  | little
  | big
  deriving DecidableEq, Repr

/-- The elements of the open type `ReadError` (R7, D19, U6): tokens that TTW copies and never inspects. A number tells two tokens apart
and means nothing (N10). Which tokens the type has is the parameter `ErrorType`. -/
structure ReadError where
  token : Nat
  deriving DecidableEq, Repr

/-- The type argument `ReadError` of R7 as plain data, up to the names of its elements: how many it has, at least one (log entry 10). -/
inductive ErrorType where
  /-- `others + 1` elements. -/
  | finite (others : Nat)
  /-- As many as there are numbers. -/
  | countable
  deriving DecidableEq, Repr

/-- One set of requests: those whose REQ word has the bits `value` under `mask`. -/
structure ReqPattern where
  mask : ReqWord
  value : ReqWord
  deriving DecidableEq, Repr

/-- One slot whose byte address is not that of array indexing. -/
structure SlotOverride where
  tableBase : Word64
  index : Index
  addr : Word64
  deriving DecidableEq, Repr

/-- The open parameters. -/
structure Params where
  /-- `ADDR_BITS` (R7, D2) less 48: the width of the `table_base` operand and of `cur_table`. The register must hold every output address
  (R25, R155: 48 bits), and the records give it 64 bits (R92, R96, R97), so the widths are 48 to 64 (log entry 29). -/
  upperAddrBits : Fin 17
  /-- `malformed` (R7, D14 OPEN): a request is malformed iff one of the patterns matches its REQ word. Every predicate on requests is
  such a list. -/
  malformed : List ReqPattern
  /-- `ReadError` (R7, D19 OPEN). -/
  errorType : ErrorType
  /-- What the attached memory reader reports for a slot it cannot resolve (R52, D19). -/
  absentErr : ReadError
  /-- `slot_addr` (R7, D5): the slots whose byte address is another than the default formula's. The operands are finitely many, so every
  function of them is the formula with such a list (log entry 11). -/
  slotOverrides : List SlotOverride
  /-- `BYTE_ORDER` (R7, D6). -/
  byteOrder : ByteOrder
  /-- Does the attached reader serve a slot address that is not 8-byte aligned (93 U12)? -/
  serveUnaligned : Bool
  /-- Does the attached reader serve a slot whose address computation passes 2^64 (93 U12)? -/
  serveWrapped : Bool
  /-- Is a memory reader attached that answers (70 R233)? If not, a read that no `answer` turn serves is never answered (R239). -/
  readerAttached : Bool
  deriving DecidableEq, Repr

/-- The defaults of R7 (`ADDR_BITS` 64, `malformed` never, `ReadError` of one element, `slot_addr` array indexing, little-endian), and for the points R7 does not list a
reader that is attached and serves every slot of the image (DESIGN CHOICE, log entries 12, 13; 95 P8 part (b)). -/
def Params.default : Params :=
  { upperAddrBits := 16
    malformed := []
    errorType := .finite 0
    absentErr := ⟨0⟩
    slotOverrides := []
    byteOrder := .little
    serveUnaligned := true
    serveWrapped := true
    readerAttached := true }

end Sys2Proof
end

