-- ==== Sys2Proof/Machine/Operands.lean ====
section
/-! DEFINITION. Every operand form: the fields of a virtual address (spec/30_encoding.md R81, R84), of a descriptor (R82, R83, R85,
R86), of the REQ and RDREQ records (R92, R97), the byte address of a slot (spec/20_memory.md R51), bytes and words, and the four-fold
registers. -/

namespace Sys2Proof

/-- Element `l` of a four-fold register. -/
def Quad.get {α : Type} (q : Quad α) : Level → α
  | 0 => q.at0
  | 1 => q.at1
  | 2 => q.at2
  | 3 => q.at3

/-- The register with element `l` written. -/
def Quad.set {α : Type} (q : Quad α) (l : Level) (x : α) : Quad α :=
  match l with
  | 0 => { q with at0 := x }
  | 1 => { q with at1 := x }
  | 2 => { q with at2 := x }
  | 3 => { q with at3 := x }

/-- The four elements in the order of their levels. -/
def Quad.toList {α : Type} (q : Quad α) : List α :=
  [q.at0, q.at1, q.at2, q.at3]

/-! ### The open parameters at work -/

/-- The width `ADDR_BITS`. -/
def Params.addrBits (p : Params) : Nat := 48 + p.upperAddrBits.val

/-- The `table_base` operand: the low `ADDR_BITS` bits of the request's field (R7, D2; log entry 29). -/
def Params.operandBase (p : Params) (tableBase : Word64) : Word64 :=
  (tableBase.setWidth p.addrBits).setWidth 64

/-- The element of the type that a token names; every token names one. -/
def ErrorType.element : ErrorType → ReadError → ReadError
  | .finite others, e => ⟨e.token % (others + 1)⟩
  | .countable, e => e

/-- The address the parameter `slot_addr` gives the slot, where it is not the default formula's. -/
def Params.overrideOf (p : Params) (tableBase : Word64) (index : Index) : Option Word64 :=
  (p.slotOverrides.find? (fun o => o.tableBase == tableBase && o.index == index)).map SlotOverride.addr

/-- `slot_addr(tb, ix)` before it wraps: `tb + 8 * ix` (R51, D5), or the address the parameter gives instead (R7). -/
def Params.slotSum (p : Params) (tableBase : Word64) (index : Index) : Nat :=
  match p.overrideOf tableBase index with
  | some addr => addr.toNat
  | none => tableBase.toNat + 8 * index.toNat

/-- `slot_addr(tb, ix)` modulo 2^64 (R51): the memory reader's computation. -/
def Params.slotAddr (p : Params) (tableBase : Word64) (index : Index) : Word64 :=
  BitVec.ofNat 64 (p.slotSum tableBase index)

/-- Is the slot's address 8-byte aligned (R54)? -/
def Params.slotAligned (p : Params) (tableBase : Word64) (index : Index) : Bool :=
  p.slotSum tableBase index % 8 == 0

/-- Does the slot lie below 2^64 without wrapping, its 8 bytes too (R55)? -/
def Params.slotInRange (p : Params) (tableBase : Word64) (index : Index) : Bool :=
  decide (p.slotSum tableBase index + 7 < 2 ^ 64)

namespace Machine

/-! ### Format VA -/

/-- `l0 = (va >> 39) & 0x1FF` (R84). -/
def vaL0 (va : Word64) : Index := ((va >>> 39) &&& 0x1FF#64).setWidth 9

/-- `l1 = (va >> 30) & 0x1FF` (R84). -/
def vaL1 (va : Word64) : Index := ((va >>> 30) &&& 0x1FF#64).setWidth 9

/-- `l2 = (va >> 21) & 0x1FF` (R84). -/
def vaL2 (va : Word64) : Index := ((va >>> 21) &&& 0x1FF#64).setWidth 9

/-- `l3 = (va >> 12) & 0x1FF` (R84). -/
def vaL3 (va : Word64) : Index := ((va >>> 12) &&& 0x1FF#64).setWidth 9

/-- `offset = va & 0xFFF` (R84). -/
def vaOffset (va : Word64) : Offset := (va &&& 0xFFF#64).setWidth 12

/-! ### Format DESC -/

/-- `BIT_VALID` (R6, R82, R83). -/
def entryValid (entry : Word64) : Bool := entry.getLsbD 0

/-- `BIT_TYPE` (R6, R82). -/
def entryType (entry : Word64) : Bool := entry.getLsbD 1

/-- The output address, by mask only and not shifted (R85). -/
def outputAddress (entry : Word64) : Word64 := entry &&& Config.oaMask

/-- `AP = (entry >> 6) & 0x3` (R86). -/
def entryAp (entry : Word64) : BitVec 2 := ((entry >>> 6) &&& 0x3#64).setWidth 2

/-- `PXN = entry[53]` (R86). -/
def entryPxn (entry : Word64) : Bool := entry.getLsbD 53

/-- `UXN = entry[54]` (R86). -/
def entryUxn (entry : Word64) : Bool := entry.getLsbD 54

/-- Is the word an Invalid entry, at any level (R121)? -/
def isInvalidEntry (entry : Word64) : Bool := !entryValid entry

/-- Is the word a Block at this level (R122)? -/
def isBlockEntry (entry : Word64) (level : Level) : Bool :=
  decide (level < 3) && entryValid entry && !entryType entry

/-- Is the word a Table at this level (R123)? -/
def isTableEntry (entry : Word64) (level : Level) : Bool :=
  decide (level < 3) && entryValid entry && entryType entry

/-- Is the word a Page at this level (R124)? Bit 1 is not looked at (R90). -/
def isPageEntry (entry : Word64) (level : Level) : Bool :=
  decide (level = 3) && entryValid entry

/-! ### Records -/

/-- REQ: `req_table_base` in bits 127:64, `req_va` in bits 63:0 (R92). -/
def packReq (tableBase va : Word64) : ReqWord := tableBase ++ va

/-- `req_table_base` of a REQ word. -/
def reqTableBase (w : ReqWord) : Word64 := w.extractLsb' 64 64

/-- `req_va` of a REQ word. -/
def reqVa (w : ReqWord) : Word64 := w.extractLsb' 0 64

/-- RDREQ: the table base in bits 72:9, the index in bits 8:0 (R97, opcode_table.json). -/
def packRdReq (tableBase : Word64) (index : Index) : RdReqWord := tableBase ++ index

/-- `rd_table_base` of an RDREQ word. -/
def rdTableBase (w : RdReqWord) : Word64 := w.extractLsb' 9 64

/-- `rd_index` of an RDREQ word. -/
def rdIndex (w : RdReqWord) : Index := w.extractLsb' 0 9

/-- Does the pattern match the REQ word? -/
def patternMatches (w : ReqWord) (p : ReqPattern) : Bool := w &&& p.mask == p.value

/-- The open parameter `malformed` (R7, R195): is the request with these operands rejected before a walk begins? -/
def isMalformed (p : Params) (tableBase va : Word64) : Bool :=
  p.malformed.any (patternMatches (packReq (p.operandBase tableBase) va))

/-! ### Bytes -/

/-- The `n` low bytes of a number, the least significant first. -/
def bytesLE : Nat → Nat → List Byte
  | 0, _ => []
  | n + 1, w => BitVec.ofNat 8 w :: bytesLE n (w / 256)

/-- The number that bytes make, the least significant first. -/
def ofBytesLE : List Byte → Nat
  | [] => 0
  | b :: bs => b.toNat + 256 * ofBytesLE bs

/-- The 8 bytes of a slot, in the order of their addresses, as the 64-bit value (R53). -/
def slotValue (order : ByteOrder) (bytes : List Byte) : Word64 :=
  match order with
  | .little => BitVec.ofNat 64 (ofBytesLE bytes)
  | .big => BitVec.ofNat 64 (ofBytesLE bytes.reverse)

/-- The 8 bytes of a value, in the order of their addresses (R53). -/
def slotBytesOf (order : ByteOrder) (v : Word64) : List Byte :=
  match order with
  | .little => bytesLE 8 v.toNat
  | .big => (bytesLE 8 v.toNat).reverse

end Machine
end Sys2Proof
end

