-- ==== Sys2Proof/Syntax.lean ====
section
/-! DEFINITION. The operations of TTW as syntax: one constructor for each row of spec/opcode_table.json, each with its operand word,
and the ports on which operation words are presented (spec/10_state.md R35 to R38). -/

namespace Sys2Proof

/-- Where an operation word is presented. No word of TTW carries an operation select (R92): the port says which operation is meant,
and at the classifier's and the permission decoder's ports the level comes beside the word (R38, R87, R144). -/
inductive Port where
  /-- The request port: REQ words, operation `walk` (R35). -/
  | request
  /-- The memory reader's port: RDREQ words, operation `read_u64` (R37). -/
  | reader
  /-- AddressDecomposer's port: VA words (R38). -/
  | decomposer
  /-- EntryClassifier's port: a DESC word and the level it is read at (R38). -/
  | classifier (level : Level)
  /-- PermissionDecoder's port: a DESC word and the level the caller asserts it was read at (R38, R144). -/
  | permissions (level : Level)
  /-- PermissionDecoder's output line USER_EXEC alone (R136), with the asserted level (R144). -/
  | userExecLine (level : Level)
  /-- PermissionDecoder's output line PRIV_EXEC alone (R137), with the asserted level (R144). -/
  | privExecLine (level : Level)
  /-- PermissionDecoder's four read and write output lines (R138 to R141), with the asserted level (R144). -/
  | accessLines (level : Level)
  deriving DecidableEq, Repr

/-- A DESC word with the level at which the caller asserts it was read (R144). -/
structure AssertedEntry where
  word : Word64
  level : Level
  deriving DecidableEq, Repr

/-- Why an operation word is no word of its port. -/
inductive DecodeError where
  /-- Every format has one fixed length (R80). -/
  | wrongLength (port : Port) (bytes : Nat)
  /-- RDREQ has 73 bits; in whole bytes the 7 bits above them are not part of it and must be 0 (log entry 3). -/
  | rdreqPadding
  deriving DecidableEq, Repr

/-- The operations: one constructor per row of spec/opcode_table.json. -/
inductive Instr where
  /-- `decompose` (R110). -/
  | decompose (va : Word64)
  /-- `classify.invalid` (R121). -/
  | classifyInvalid (entry : Word64) (level : Level)
  /-- `classify.block` (R122). -/
  | classifyBlock (entry : Word64) (level : Level)
  /-- `classify.table` (R123). -/
  | classifyTable (entry : Word64) (level : Level)
  /-- `classify.page` (R124). -/
  | classifyPage (entry : Word64) (level : Level)
  /-- `decode_permissions` (R135), with the level the caller asserts (R144). -/
  | decodePermissions (entry : Word64) (level : Level)
  /-- `decode_permissions.uxn_clear` (R136): both values of UXN, as the row's note says. -/
  | permUxnClear (entry : AssertedEntry)
  /-- `decode_permissions.pxn_clear` (R137): both values of PXN, as the row's note says. -/
  | permPxnClear (entry : AssertedEntry)
  /-- `decode_permissions.ap0` (R138). -/
  | permAp0 (entry : AssertedEntry)
  /-- `decode_permissions.ap1` (R139). -/
  | permAp1 (entry : AssertedEntry)
  /-- `decode_permissions.ap2` (R140). -/
  | permAp2 (entry : AssertedEntry)
  /-- `decode_permissions.ap3` (R141). -/
  | permAp3 (entry : AssertedEntry)
  /-- `walk` (R150). -/
  | walk (tableBase va : Word64)
  /-- `read_u64` (R50): consumed from the memory reader. -/
  | readU64 (tableBase : Word64) (index : Index)
  deriving DecidableEq, Repr

end Sys2Proof
end

