-- ==== Sys2Proof/WellFormed.lean ====
section
/-! DEFINITION. Which terms of Instr are words of the machine: a row of spec/opcode_table.json with fixed bits admits only operand
words that have them, at the levels the row lists. -/

namespace Sys2Proof

open Machine

/-- The row's fixed bits and levels. `decompose`, `decode_permissions`, its uxn and pxn rows, `walk` and `read_u64` admit every operand
word (their masks are 0, or their notes give both values of the bit). -/
def Instr.wf : Instr → Bool
  | .decompose _ => true
  | .classifyInvalid entry _ => isInvalidEntry entry
  | .classifyBlock entry level => isBlockEntry entry level
  | .classifyTable entry level => isTableEntry entry level
  | .classifyPage entry level => isPageEntry entry level
  | .decodePermissions _ _ => true
  | .permUxnClear _ => true
  | .permPxnClear _ => true
  | .permAp0 entry => entryAp entry.word == 0
  | .permAp1 entry => entryAp entry.word == 1
  | .permAp2 entry => entryAp entry.word == 2
  | .permAp3 entry => entryAp entry.word == 3
  | .walk _ _ => true
  | .readU64 _ _ => true

end Sys2Proof
end

