-- ==== Sys2Proof/Decode.lean ====
section
/-! DEFINITION. From an operation word on a port to an instruction, total on any bytes, and back (spec/30_encoding.md R80 to R92, R97;
spec/opcode_table.json). A word is laid out with its least significant byte first (log entry 3). -/

namespace Sys2Proof

open Machine

/-- How many bytes a word of the port has (R80): VA and DESC 64 bits, REQ 128 bits, RDREQ 73 bits in 10 bytes. -/
def portBytes : Port → Nat
  | .request => 16
  | .reader => 10
  | .decomposer => 8
  | .classifier _ => 8
  | .permissions _ => 8
  | .userExecLine _ => 8
  | .privExecLine _ => 8
  | .accessLines _ => 8

/-- The classifier's decode order (R87): bit 0 first, then the level, then (at levels 0 to 2) bit 1. -/
def decodeEntry (entry : Word64) (level : Level) : Instr :=
  if entryValid entry = false then .classifyInvalid entry level
  else if level < 3 then
    if entryType entry = false then .classifyBlock entry level
    else .classifyTable entry level
  else .classifyPage entry level

/-- The row of the AP field's value (R138 to R141). -/
def decodeAp (entry : AssertedEntry) : Instr :=
  match (entryAp entry.word).toNat with
  | 0 => .permAp0 entry
  | 1 => .permAp1 entry
  | 2 => .permAp2 entry
  | _ => .permAp3 entry

/-- The instruction a word of the port's length stands for. -/
def decodeWord (p : Port) (w : Nat) : Except DecodeError Instr :=
  match p with
  | .request => .ok (.walk (reqTableBase (BitVec.ofNat 128 w)) (reqVa (BitVec.ofNat 128 w)))
  | .reader =>
    if w < 2 ^ 73 then .ok (.readU64 (rdTableBase (BitVec.ofNat 73 w)) (rdIndex (BitVec.ofNat 73 w)))
    else .error .rdreqPadding
  | .decomposer => .ok (.decompose (BitVec.ofNat 64 w))
  | .classifier level => .ok (decodeEntry (BitVec.ofNat 64 w) level)
  | .permissions level => .ok (.decodePermissions (BitVec.ofNat 64 w) level)
  | .userExecLine level => .ok (.permUxnClear ⟨BitVec.ofNat 64 w, level⟩)
  | .privExecLine level => .ok (.permPxnClear ⟨BitVec.ofNat 64 w, level⟩)
  | .accessLines level => .ok (decodeAp ⟨BitVec.ofNat 64 w, level⟩)

/-- The instruction that the bytes presented on a port stand for. -/
def decode (p : Port) (bytes : List Byte) : Except DecodeError Instr :=
  if bytes.length = portBytes p then decodeWord p (ofBytesLE bytes)
  else .error (.wrongLength p bytes.length)

/-- The port on which the instruction's word is presented. -/
def portOf : Instr → Port
  | .decompose _ => .decomposer
  | .classifyInvalid _ level => .classifier level
  | .classifyBlock _ level => .classifier level
  | .classifyTable _ level => .classifier level
  | .classifyPage _ level => .classifier level
  | .decodePermissions _ level => .permissions level
  | .permUxnClear entry => .userExecLine entry.level
  | .permPxnClear entry => .privExecLine entry.level
  | .permAp0 entry => .accessLines entry.level
  | .permAp1 entry => .accessLines entry.level
  | .permAp2 entry => .accessLines entry.level
  | .permAp3 entry => .accessLines entry.level
  | .walk _ _ => .request
  | .readU64 _ _ => .reader

/-- The instruction's word as a number: the operand word itself, packed for the two request records (R92, R97). -/
def encodeWord : Instr → Nat
  | .decompose va => va.toNat
  | .classifyInvalid entry _ => entry.toNat
  | .classifyBlock entry _ => entry.toNat
  | .classifyTable entry _ => entry.toNat
  | .classifyPage entry _ => entry.toNat
  | .decodePermissions entry _ => entry.toNat
  | .permUxnClear entry => entry.word.toNat
  | .permPxnClear entry => entry.word.toNat
  | .permAp0 entry => entry.word.toNat
  | .permAp1 entry => entry.word.toNat
  | .permAp2 entry => entry.word.toNat
  | .permAp3 entry => entry.word.toNat
  | .walk tableBase va => (packReq tableBase va).toNat
  | .readU64 tableBase index => (packRdReq tableBase index).toNat

/-- The instruction's word in bytes, as it is presented on its port. -/
def encode (i : Instr) : List Byte := bytesLE (portBytes (portOf i)) (encodeWord i)

/-- The port for a table word that comes without one. The table's rows of 64 bits overlap by design: no DESC or VA word says which
port it is meant for. The model takes the permission decoder's access lines for a word with an AP field and bit 0 clear, as the match
words of the rows ap1 to ap3 are, and the classifier at level 0 for any other (rows invalid, block and table). DESIGN CHOICE, log entry
2; nothing in the machine uses it. -/
def tablePort (nbits w : Nat) : Option Port :=
  match (nbits + 7) / 8 with
  | 16 => some .request
  | 10 => some .reader
  | 8 => if w % 2 = 0 ∧ entryAp (BitVec.ofNat 64 w) ≠ 0 then some (.accessLines 3) else some (.classifier 0)
  | _ => none

/-- The instruction the decoder reads from a word numbered as spec/opcode_table.json numbers it. -/
def decodeTableWord (nbits w : Nat) : Option Instr :=
  match tablePort nbits w with
  | none => none
  | some p => (decode p (bytesLE (portBytes p) w)).toOption

end Sys2Proof
end

