-- ==== Sys2Proof/Machine/State.lean ====
section
/-! DEFINITION. The state of TTW and of what stands around it, as plain data (spec/10_state.md R20 to R40, spec/60_exceptions.md R190,
R211), the reasons a step can stop, and the state after reset (R40, R230). -/

namespace Sys2Proof.Machine

/-! ### Values -/

/-- The walk-control states (R21). -/
inductive Fsm where
  | idle
  | issue
  | wait
  | done
  deriving DecidableEq, Repr

/-- `EntryKind` (R11). -/
inductive EntryKind where
  | invalid
  | block
  | table
  | page
  deriving DecidableEq, Repr

/-- `Classified` (R11, R120): Invalid and Block carry no address (R126). -/
inductive Classified where
  | invalid
  | block
  | table (oa : Word64)
  | page (oa : Word64)
  deriving DecidableEq, Repr

/-- `Perms` (R11, R94): the six flags. -/
structure Perms where
  privRead : Bool
  privWrite : Bool
  privExec : Bool
  userRead : Bool
  userWrite : Bool
  userExec : Bool
  deriving DecidableEq, Repr

/-- The permission decoder's six output lines, each on its own (R136 to R141); none: nothing presented on it. -/
structure PermLines where
  privRead : Option Bool
  privWrite : Option Bool
  privExec : Option Bool
  userRead : Option Bool
  userWrite : Option Bool
  userExec : Option Bool
  deriving DecidableEq, Repr

/-- The result of `decompose` (R110). -/
structure VaFields where
  l0 : Index
  l1 : Index
  l2 : Index
  l3 : Index
  offset : Offset
  deriving DecidableEq, Repr

/-- One WalkStep, format STEP (R96). -/
structure WalkStep where
  level : Level
  tableBaseUsed : Word64
  indexUsed : Index
  rawEntry : Word64
  kind : EntryKind
  deriving DecidableEq, Repr

/-- `WalkResult` (R190): one variant for each way a walk ends. The kind of a Failure is always Invalid and that of a Stopped always
Block, so neither is a field (`WalkResult.kind?` gives it). -/
inductive WalkResult where
  | success (address : Word64) (perms : Perms)
  | failure (level : Level)
  | stopped (level : Level)
  | readFailure (level : Level) (tableBase : Word64) (index : Index) (err : ReadError)
  | malformedArgument
  deriving DecidableEq, Repr

/-- `ReadResult`, format RDRESP (R11, R97). -/
inductive ReadResult where
  | ok (value : Word64)
  | err (e : ReadError)
  deriving DecidableEq, Repr

/-- A memory read request, format RDREQ (R97). -/
structure RdReq where
  tableBase : Word64
  index : Index
  deriving DecidableEq, Repr

/-- What is handed over at DELIVER (R36, R161): the result and the steps of the trace that count. -/
structure Response where
  result : WalkResult
  steps : List WalkStep
  deriving DecidableEq, Repr

/-! ### The machine -/

/-- The state of one TTW instance: exactly the elements of R20. -/
structure Walker where
  fsm : Fsm
  level : Level
  idx : Quad Index
  curTable : Word64
  trace : Quad WalkStep
  traceLen : BitVec 3
  result : WalkResult
  deriving DecidableEq, Repr

/-- What stands on one instance's ports (R35 to R38), and two records of what went over them. They are not state of TTW (R20): no
transition of the walker reads them, but for the request it accepts. -/
structure Ports where
  /-- REQ words the requester presents and TTW has not taken, oldest first (R35: neither dropped nor queued by TTW, kept by the
  requester). -/
  pending : List ReqWord
  /-- The RDRESP last presented by the memory reader (R37); none: nothing presented. It stands until the next answer or a reset, which is
  the model's choice (DESIGN CHOICE, log entry 31). -/
  readerOut : Option ReadResult
  /-- Output of AddressDecomposer's port (R38). -/
  decomposeOut : Option VaFields
  /-- Output of EntryClassifier's port (R38). -/
  classifyOut : Option Classified
  /-- Output of PermissionDecoder's port (R38, R135). -/
  permsOut : Option Perms
  /-- PermissionDecoder's output lines one by one (R136 to R141). -/
  permLines : PermLines
  /-- RDREQs sent for the walk in progress or just ended, in order (R158: "A model records the sending as an event of its own").
  The model's own record, log entry 21. -/
  sent : List RdReq
  /-- What the requester has taken, in order (R36, R161). The model's own record, log entry 21. -/
  delivered : List Response
  deriving DecidableEq, Repr

/-- One instance with its ports. -/
structure Ttw where
  walker : Walker
  ports : Ports
  deriving DecidableEq, Repr

/-- What one of the agents does in a step (log entry 4). -/
inductive Turn where
  /-- The agent whom the walker's state waits for acts (R21): the requester presents its oldest request, the walker sends the read, the
  attached memory reader answers, the requester takes the result. -/
  | proceed
  /-- Nobody acts. -/
  | hold
  /-- An operation word is presented on a port. -/
  | operate (port : Port) (word : List Byte)
  /-- The memory reader answers, whatever memory holds (R62: any Ok, or Err of any element of `ReadError`). -/
  | answer (r : ReadResult)
  /-- The answer to a read that a reset abandoned comes late (R231). -/
  | lateAnswer (r : ReadResult)
  /-- Another agent writes bytes of memory (R62, R238, 95 P10). -/
  | agentWrite (addr : Word64) (bytes : List Byte)
  /-- Another agent makes bytes of memory unreadable (R52: "address not mapped"). -/
  | agentErase (addr : Word64) (count : Nat)
  /-- The next steps are those of another TTW instance (R211). -/
  | select (k : Nat)
  /-- Reset of the instance (R230, R231). -/
  | reset
  deriving DecidableEq, Repr

/-- Memory: (address, byte) cells. An unlisted byte holds no value (log entry 8). -/
abbrev Memory := List Host.Cell

/-- The whole machine. -/
structure State where
  /-- The registers of the instance whose steps are taken now. -/
  walker : Walker
  /-- Its ports. -/
  ports : Ports
  /-- The platform's other instances (R211, `N_WALKERS`). -/
  others : List Ttw
  /-- The memory behind the memory reader (R50, R59). All instances read this one memory through one attached reader, which is the model's
  choice: R211 and D16 say that instances may share the reader (DESIGN CHOICE, log entry 33). -/
  mem : Memory
  /-- The open parameters of R7 and of the attached reader, the same for all instances (DESIGN CHOICE, log entry 33); no step writes
  them. -/
  params : Params
  /-- What the agents around the walker do next, the next turn first; past its end every turn is `proceed` (log entry 4). -/
  schedule : List Turn
  deriving DecidableEq, Repr

/-! ### Stops -/

/-- Why the machine stops with a fault. No operation of TTW faults (R13 point 5, R196). -/
inductive Fault where
  /-- Raised by a step whose turn selects an instance the platform does not have (R211). Safe. -/
  | noSuchWalker (k : Nat)
  deriving DecidableEq, Repr

/-- Why the machine refuses. -/
inductive Refusal where
  /-- Raised by exec's arm of an instruction without a meaning. Safe. -/
  | notModelled (mnemonic : String)
  /-- Raised by a step whose turn presents bytes that are no word of the port's format (R80, R97). Safe. -/
  | undecodable (e : DecodeError)
  /-- Raised by `decode_permissions` and the rows of its output lines on a word that is not a Page-kind entry: R144 ("is refused otherwise"), D22, U2. Safe. -/
  | notPageKind
  /-- Raised by a row's meaning on a term of Instr whose operand word does not have the row's fixed bits or level; no word decodes to
  such a term (log entry 17). Safe. -/
  | rowMismatch (mnemonic : String)
  deriving DecidableEq, Repr

/-! ### Reset -/

/-- The value of a trace slot at reset: R40 leaves it unspecified. DESIGN CHOICE, log entry 6. -/
def WalkStep.reset : WalkStep :=
  { level := 0, tableBaseUsed := 0#64, indexUsed := 0#9, rawEntry := 0#64, kind := .invalid }

/-- No flag set. -/
def Perms.none : Perms :=
  { privRead := false, privWrite := false, privExec := false
    userRead := false, userWrite := false, userExec := false }

/-- The registers after reset: `fsm = IDLE` and `trace_len = 0` (R40). R40 gives the others no value; theirs are a DESIGN CHOICE, log
entry 6. -/
def Walker.reset : Walker :=
  { fsm := .idle
    level := 0
    idx := ⟨0#9, 0#9, 0#9, 0#9⟩
    curTable := 0#64
    trace := ⟨WalkStep.reset, WalkStep.reset, WalkStep.reset, WalkStep.reset⟩
    traceLen := 0#3
    result := .success 0#64 Perms.none }

/-- No output line presented. -/
def PermLines.reset : PermLines :=
  { privRead := .none, privWrite := .none, privExec := .none
    userRead := .none, userWrite := .none, userExec := .none }

/-- The ports after reset: nothing presented (R40; for the combinational outputs, which R40 does not list, DESIGN CHOICE, log entry 26). -/
def Ports.reset : Ports :=
  { pending := []
    readerOut := none
    decomposeOut := none
    classifyOut := none
    permsOut := none
    permLines := PermLines.reset
    sent := []
    delivered := [] }

/-- An instance after reset. -/
def Ttw.reset : Ttw := { walker := Walker.reset, ports := Ports.reset }

/-- The machine right after reset (R40, R230): every instance in its reset state, nothing presented, memory with nothing listed,
nothing scheduled. -/
def State.reset : State :=
  { walker := Walker.reset
    ports := Ports.reset
    others := List.replicate (Config.nWalkers - 1) Ttw.reset
    mem := []
    params := Params.default
    schedule := [] }

end Sys2Proof.Machine
end

