-- ==== Sys2Proof/Machine/Ops.lean ====
section
/-! DEFINITION. The named operations over memory, registers and ports; ending a walk, which stands in the place of taking an exception
(spec/60_exceptions.md R199), and handing the result over, which stands in the place of the return (R201). -/

namespace Sys2Proof.Machine

/-! ### Memory: cells of strictly rising addresses below 2^64, nothing listed twice -/

/-- Is the address above the bound, if there is one? -/
def Memory.above (bound : Option Nat) (a : Nat) : Bool :=
  match bound with
  | none => true
  | some b => decide (b < a)

/-- Every listed address is above the bound, they rise strictly, and all are addresses of the 64-bit space. -/
def Memory.risesFrom : Option Nat → Memory → Bool
  | _, [] => true
  | bound, (a, _) :: rest =>
    Memory.above bound a && decide (a < 2 ^ 64) && Memory.risesFrom (some a) rest

/-- The canonical form. An unlisted byte holds no value, so no cell repeats it. -/
def Memory.wf (m : Memory) : Bool := Memory.risesFrom none m

/-- The byte at an address; none where nothing is listed. -/
def Memory.readByte : Memory → Nat → Option Byte
  | [], _ => none
  | (a, b) :: rest, addr => if a = addr then some b else Memory.readByte rest addr

/-- The memory with one byte written, in canonical form. -/
def Memory.writeByte : Memory → Nat → Byte → Memory
  | [], addr, v => [(addr, v)]
  | (a, b) :: rest, addr, v =>
    if addr < a then (addr, v) :: (a, b) :: rest
    else if addr = a then (addr, v) :: rest
    else (a, b) :: Memory.writeByte rest addr v

/-- The memory with one byte unlisted. -/
def Memory.eraseByte : Memory → Nat → Memory
  | [], _ => []
  | (a, b) :: rest, addr => if a = addr then rest else (a, b) :: Memory.eraseByte rest addr

/-- The `n` bytes from an address on, modulo 2^64; none if one of them is unlisted. -/
def Memory.readBytes (m : Memory) : Nat → Word64 → Option (List Byte)
  | 0, _ => some []
  | n + 1, addr =>
    match Memory.readByte m addr.toNat, Memory.readBytes m n (addr + 1) with
    | some b, some bs => some (b :: bs)
    | _, _ => none

/-- Bytes written from an address on, modulo 2^64. -/
def Memory.writeBytes : Memory → Word64 → List Byte → Memory
  | m, _, [] => m
  | m, addr, b :: bs => Memory.writeBytes (Memory.writeByte m addr.toNat b) (addr + 1) bs

/-- `n` bytes unlisted from an address on, modulo 2^64. -/
def Memory.eraseBytes : Memory → Word64 → Nat → Memory
  | m, _, 0 => m
  | m, addr, n + 1 => Memory.eraseBytes (Memory.eraseByte m addr.toNat) (addr + 1) n

/-- `read_u64` as the attached memory reader answers it (R50 to R53): the slot's 8 bytes as one value, or `Err` where the slot cannot
be resolved (R52, R99: a slot not listed answers Err) or is one the reader does not serve (93 U12). That it answers from memory as it
stands, never from an older copy, is the model's choice (R65 leaves staleness to the reader; DESIGN CHOICE, log entry 32). -/
def State.readU64 (s : State) (tableBase : Word64) (index : Index) : ReadResult :=
  if (s.params.serveUnaligned || s.params.slotAligned tableBase index) &&
      (s.params.serveWrapped || s.params.slotInRange tableBase index) then
    match Memory.readBytes s.mem Config.slotBytes (s.params.slotAddr tableBase index) with
    | some bytes => .ok (slotValue s.params.byteOrder bytes)
    | none => .err (s.params.errorType.element s.params.absentErr)
  else .err (s.params.errorType.element s.params.absentErr)

/-- What a memory reader presents, its error as an element of the type `ReadError` (R7, D19). -/
def ReadResult.reported (r : ReadResult) (ty : ErrorType) : ReadResult :=
  match r with
  | .ok v => .ok v
  | .err e => .err (ty.element e)

/-- Another agent writes bytes of memory (R62, R238). TTW has no write path (R2, R56). -/
def State.agentWrite (s : State) (addr : Word64) (bytes : List Byte) : State :=
  { s with mem := Memory.writeBytes s.mem addr bytes }

/-- Another agent makes bytes of memory unreadable. -/
def State.agentErase (s : State) (addr : Word64) (count : Nat) : State :=
  { s with mem := Memory.eraseBytes s.mem addr count }

/-! ### Registers -/

/-- The index of the level being visited, `idx[level]`: the one indexed register read (R10). -/
def Walker.curIndex (w : Walker) : Index := w.idx.get w.level

/-- The read that is outstanding: in WAIT the slot `(cur_table, idx[level])`, else none (R34). -/
def Walker.outstanding (w : Walker) : Option RdReq :=
  match w.fsm with
  | .wait => some { tableBase := w.curTable, index := w.curIndex }
  | _ => none

/-- The steps of the trace that count (R26): `trace[0 .. trace_len-1]`. -/
def Walker.steps (w : Walker) : List WalkStep := w.trace.toList.take w.traceLen.toNat

/-- `trace[level] <- step ; trace_len <- level + 1` (R159). -/
def Walker.appendStep (w : Walker) (step : WalkStep) : Walker :=
  { w with trace := w.trace.set w.level step, traceLen := BitVec.ofNat 3 (w.level.val + 1) }

/-- Ending a walk (R199), the one act that all five outcomes share: write `result`, move `fsm` to DONE, nothing else. -/
def Walker.endWalk (w : Walker) (outcome : WalkResult) : Walker :=
  { w with result := outcome, fsm := .done }

/-- The hand-over's effect on the registers (R161): `fsm <- IDLE`. The other registers are dead from here on (R28) and keep their
values (log entry 22). -/
def Walker.release (w : Walker) : Walker := { w with fsm := .idle }

/-- What DELIVER hands over (R161). -/
def Walker.response (w : Walker) : Response := { result := w.result, steps := w.steps }

/-! ### The state's parts -/

/-- The instance's registers replaced. -/
def State.withWalker (s : State) (w : Walker) : State := { s with walker := w }

/-- AddressDecomposer's output presented (R38). -/
def State.driveDecompose (s : State) (d : VaFields) : State :=
  { s with ports := { s.ports with decomposeOut := some d } }

/-- EntryClassifier's output presented (R38). -/
def State.driveClassify (s : State) (c : Classified) : State :=
  { s with ports := { s.ports with classifyOut := some c } }

/-- PermissionDecoder's output presented (R38). -/
def State.drivePerms (s : State) (p : Perms) : State :=
  { s with ports := { s.ports with permsOut := some p } }

/-- PermissionDecoder's single output lines presented (R136 to R141). -/
def State.driveLines (s : State) (l : PermLines) : State :=
  { s with ports := { s.ports with permLines := l } }

/-- The memory reader's answer presented (R37). That it still stands on the port after the walker has taken it, until the next answer or a
reset, is the model's choice: N1 leaves open whether a port is registered (DESIGN CHOICE, log entry 31). -/
def State.driveReader (s : State) (r : ReadResult) : State :=
  { s with ports := { s.ports with readerOut := some r } }

/-- The requester keeps presenting a request that TTW does not take (R35, R234). -/
def State.keepRequest (s : State) (w : ReqWord) : State :=
  { s with ports := { s.ports with pending := s.ports.pending ++ [w] } }

/-- The record of the reads of a walk emptied, at its start. -/
def State.clearSent (s : State) : State :=
  { s with ports := { s.ports with sent := [] } }

/-- A read request put on the memory-reader port (R158). -/
def State.sendRead (s : State) (r : RdReq) : State :=
  { s with ports := { s.ports with sent := s.ports.sent ++ [r] } }

/-- A response taken by the requester (R161). -/
def State.handOver (s : State) (r : Response) : State :=
  { s with ports := { s.ports with delivered := s.ports.delivered ++ [r] } }

/-- The schedule replaced. -/
def State.withSchedule (s : State) (turns : List Turn) : State := { s with schedule := turns }

/-- The ports after a reset of the instance: nothing presented (R40, S11); what the requester took earlier stays its own (R235). -/
def Ports.afterReset (p : Ports) : Ports := { Ports.reset with delivered := p.delivered }

/-- Reset of the instance (R230, R231): a walk in progress is abandoned and delivers nothing. Memory, the other instances and the
parameters are not TTW's own and stay. -/
def State.resetInstance (s : State) : State :=
  { s with walker := Walker.reset, ports := s.ports.afterReset }

/-- The instance at place `k` of the others changes places with the one whose steps are taken (R211). Memory and the reader stay, because
all instances share them, which is the model's choice: R211 and D16 leave it open (DESIGN CHOICE, log entry 33). -/
def State.selectWalker (s : State) (k : Nat) (t : Ttw) : State :=
  { s with
    walker := t.walker
    ports := t.ports
    others := s.others.set k { walker := s.walker, ports := s.ports } }

end Sys2Proof.Machine
end

