-- ==== Sys2Proof/Machine/Classify.lean ====
section
/-! DEFINITION. EntryClassifier, operation `classify` (spec/41_classify.md): the whole function in the source's order of tests, which the
walk uses, and one meaning for each row of the decode map. -/

namespace Sys2Proof.Machine

/-- `classify(entry, level)` (R120): bit 0 first, then the level, then (at levels 0 to 2) bit 1. -/
def classify (entry : Word64) (level : Level) : Classified :=
  if entryValid entry = false then .invalid
  else if level < 3 then
    if entryType entry = false then .block
    else .table (outputAddress entry)
  else .page (outputAddress entry)

/-- `kind(c)`: the variant without the address (R120). -/
def Classified.kind : Classified → EntryKind
  | .invalid => .invalid
  | .block => .block
  | .table _ => .table
  | .page _ => .page

/-- Row `classify.invalid` (R121): no address. -/
def execClassifyInvalid (entry : Word64) (_level : Level) (s : State) : Host.Outcome State Fault Refusal :=
  if isInvalidEntry entry then .next (s.driveClassify .invalid)
  else .refused (.rowMismatch "classify.invalid")

/-- Row `classify.block` (R122): no address, no attributes, at levels 0 to 2 alike. -/
def execClassifyBlock (entry : Word64) (level : Level) (s : State) : Host.Outcome State Fault Refusal :=
  if isBlockEntry entry level then .next (s.driveClassify .block)
  else .refused (.rowMismatch "classify.block")

/-- Row `classify.table` (R123): the next-level table's base. -/
def execClassifyTable (entry : Word64) (level : Level) (s : State) : Host.Outcome State Fault Refusal :=
  if isTableEntry entry level then .next (s.driveClassify (.table (outputAddress entry)))
  else .refused (.rowMismatch "classify.table")

/-- Row `classify.page` (R124): the page's base; bit 1 is not looked at (R90). -/
def execClassifyPage (entry : Word64) (level : Level) (s : State) : Host.Outcome State Fault Refusal :=
  if isPageEntry entry level then .next (s.driveClassify (.page (outputAddress entry)))
  else .refused (.rowMismatch "classify.page")

end Sys2Proof.Machine
end

