-- ==== Sys2Proof/Machine/Decompose.lean ====
section
/-! DEFINITION. AddressDecomposer, operation `decompose` (spec/40_decompose.md). -/

namespace Sys2Proof.Machine

/-- `decompose(va)` (R110). Bits 63:48 take no part (R112). -/
def decompose (va : Word64) : VaFields :=
  { l0 := vaL0 va, l1 := vaL1 va, l2 := vaL2 va, l3 := vaL3 va, offset := vaOffset va }

/-- The four indices in the order of their levels, as `idx[0..3]` latches them (R23, R157). -/
def VaFields.indices (d : VaFields) : Quad Index := ⟨d.l0, d.l1, d.l2, d.l3⟩

/-- The operation on its own port: the result is presented; no walker state is read or written (R110, R113). -/
def execDecompose (va : Word64) (s : State) : Host.Outcome State Fault Refusal :=
  .next (s.driveDecompose (decompose va))

end Sys2Proof.Machine
end

