-- ==== Sys2Proof/Machine/Flags.lean ====
section
/-! DEFINITION. Every flag computation: the six permission flags of a Page (spec/42_permissions.md R135 to R143), whole and line by
line. TTW has no other flag (spec/10_state.md R30). -/

namespace Sys2Proof.Machine

/-- USER_EXEC (R136). -/
def userExecFlag (entry : Word64) : Bool := !entryUxn entry

/-- PRIV_EXEC (R137). -/
def privExecFlag (entry : Word64) : Bool := !entryPxn entry

/-- PRIV_WRITE: `(ap = 0) or (ap = 1)` (R135). -/
def privWriteFlag (entry : Word64) : Bool := entryAp entry == 0 || entryAp entry == 1

/-- USER_READ: `(ap = 1) or (ap = 3)` (R135). -/
def userReadFlag (entry : Word64) : Bool := entryAp entry == 1 || entryAp entry == 3

/-- USER_WRITE: `ap = 1` (R135). -/
def userWriteFlag (entry : Word64) : Bool := entryAp entry == 1

/-- `decode_permissions` as a bit function, total (R135, R143); its precondition is checked where the operation is called on its own
(R144) and always holds in a walk (R168). -/
def decodePermissions (entry : Word64) : Perms :=
  { privRead := true
    privWrite := privWriteFlag entry
    privExec := privExecFlag entry
    userRead := userReadFlag entry
    userWrite := userWriteFlag entry
    userExec := userExecFlag entry }

/-- The four read and write lines driven, the two execute lines as they were (R138 to R141). -/
def PermLines.access (l : PermLines) (privRead privWrite userRead userWrite : Bool) : PermLines :=
  { l with
    privRead := some privRead
    privWrite := some privWrite
    userRead := some userRead
    userWrite := some userWrite }

end Sys2Proof.Machine
end

