-- ==== Sys2Proof/Machine/Permissions.lean ====
section
/-! DEFINITION. PermissionDecoder, operation `decode_permissions` (spec/42_permissions.md): the operation on its own port, with its
precondition, and the rows of its output lines. -/

namespace Sys2Proof.Machine

/-- `decode_permissions` on its own (R135): the word must be a Page-kind entry, bit 0 set and asserted by the caller to have been read
at level 3; it is refused otherwise (R144, D22). -/
def execDecodePermissions (entry : Word64) (level : Level) (s : State) : Host.Outcome State Fault Refusal :=
  if isPageEntry entry level then .next (s.drivePerms (decodePermissions entry))
  else .refused .notPageKind

/-- Output lines presented on their own: the rows below are `decode_permissions` line by line (R98), so its precondition holds for each
of them (R144, D22, U2; log entry 16). -/
def presentLines (entry : AssertedEntry) (lines : PermLines) (s : State) : Host.Outcome State Fault Refusal :=
  if isPageEntry entry.word entry.level then .next (s.driveLines lines)
  else .refused .notPageKind

/-- Row `decode_permissions.uxn_clear` (R136), for both values of UXN. -/
def execPermUxnClear (entry : AssertedEntry) (s : State) : Host.Outcome State Fault Refusal :=
  presentLines entry { s.ports.permLines with userExec := some (userExecFlag entry.word) } s

/-- Row `decode_permissions.pxn_clear` (R137), for both values of PXN. -/
def execPermPxnClear (entry : AssertedEntry) (s : State) : Host.Outcome State Fault Refusal :=
  presentLines entry { s.ports.permLines with privExec := some (privExecFlag entry.word) } s

/-- Row `decode_permissions.ap0` (R138): PRIV_READ and PRIV_WRITE. -/
def execPermAp0 (entry : AssertedEntry) (s : State) : Host.Outcome State Fault Refusal :=
  if entryAp entry.word = 0 then presentLines entry (s.ports.permLines.access true true false false) s
  else .refused (.rowMismatch "decode_permissions.ap0")

/-- Row `decode_permissions.ap1` (R139): all four. -/
def execPermAp1 (entry : AssertedEntry) (s : State) : Host.Outcome State Fault Refusal :=
  if entryAp entry.word = 1 then presentLines entry (s.ports.permLines.access true true true true) s
  else .refused (.rowMismatch "decode_permissions.ap1")

/-- Row `decode_permissions.ap2` (R140): PRIV_READ alone. -/
def execPermAp2 (entry : AssertedEntry) (s : State) : Host.Outcome State Fault Refusal :=
  if entryAp entry.word = 2 then presentLines entry (s.ports.permLines.access true false false false) s
  else .refused (.rowMismatch "decode_permissions.ap2")

/-- Row `decode_permissions.ap3` (R141): PRIV_READ and USER_READ. -/
def execPermAp3 (entry : AssertedEntry) (s : State) : Host.Outcome State Fault Refusal :=
  if entryAp entry.word = 3 then presentLines entry (s.ports.permLines.access true false true false) s
  else .refused (.rowMismatch "decode_permissions.ap3")

end Sys2Proof.Machine
end

