-- ==== Sys2Proof/Machine/Walk.lean ====
section
/-! DEFINITION. WalkEngine (spec/43_walk.md): the transitions of the walk-control state machine (R157 to R161), the operation `walk` on
the request port, and the procedure of R151 that runs a walk to its end. -/

namespace Sys2Proof.Machine

/-! ### ACCEPT and the operation `walk` -/

/-- ACCEPT, second branch (R157): the indices latched, the table base taken as given (R25), level 0, an empty trace. -/
def Walker.start (w : Walker) (tableBase va : Word64) : Walker :=
  { w with
    idx := (decompose va).indices
    curTable := tableBase
    level := 0
    traceLen := 0#3
    fsm := .issue }

/-- ACCEPT, first branch (R157, R195): no walk begins, no partial trace. -/
def Walker.reject (w : Walker) : Walker :=
  Walker.endWalk { w with traceLen := 0#3 } .malformedArgument

/-- ACCEPT (R157), on the operands of `ADDR_BITS` and 64 bits. -/
def State.accept (s : State) (tableBase va : Word64) : State :=
  if isMalformed s.params tableBase va then s.clearSent.withWalker s.walker.reject
  else s.clearSent.withWalker (s.walker.start (s.params.operandBase tableBase) va)

/-- `walk` presented on the request port (R35, R150): in IDLE it is accepted, and the transitions below carry it out; in any other
state TTW does not take it and the requester keeps it (R162, R234). -/
def execWalk (tableBase va : Word64) (s : State) : Host.Outcome State Fault Refusal :=
  if s.walker.fsm = .idle then .next (s.accept tableBase va)
  else .next (s.keepRequest (packReq tableBase va))

/-! ### ISSUE -/

/-- ISSUE (R158): the read of `(cur_table, idx[level])` is sent, `fsm <- WAIT`, nothing else. -/
def State.issueRead (s : State) : State :=
  (s.sendRead { tableBase := s.walker.curTable, index := s.walker.curIndex }).withWalker
    { s.walker with fsm := .wait }

/-! ### ANSWER-OK and ANSWER-ERR -/

/-- The step of the level whose read returned `v` (R165), from the registers before the transition. -/
def Walker.stepFor (w : Walker) (v : Word64) : WalkStep :=
  { level := w.level
    tableBaseUsed := w.curTable
    indexUsed := w.curIndex
    rawEntry := v
    kind := (classify v w.level).kind }

/-- Following a Table entry (R155): `cur_table <- oa ; level <- level + 1 ; fsm <- ISSUE`. No Table is classified at level 3, so the
level does not wrap (R163). -/
def Walker.follow (w : Walker) (oa : Word64) : Walker :=
  { w with curTable := oa, level := w.level + 1, fsm := .issue }

/-- ANSWER-OK (R159). -/
def Walker.answerOk (w : Walker) (v : Word64) : Walker :=
  let w' := w.appendStep (w.stepFor v)
  match classify v w.level with
  | .invalid => w'.endWalk (.failure w.level)
  | .block => w'.endWalk (.stopped w.level)
  | .table oa => w'.follow oa
  | .page oa => w'.endWalk (.success oa (decodePermissions v))

/-- ANSWER-ERR (R160): the slot and the error reported, the trace unchanged. -/
def Walker.answerErr (w : Walker) (e : ReadError) : Walker :=
  w.endWalk (.readFailure w.level w.curTable w.curIndex e)

/-- The answer to the outstanding read. -/
def Walker.answered (w : Walker) (r : ReadResult) : Walker :=
  match r with
  | .ok v => w.answerOk v
  | .err e => w.answerErr e

/-- An answer is taken only in WAIT; in any other state it changes nothing (R162, D28). -/
def State.takeAnswer (s : State) (r : ReadResult) : State :=
  if s.walker.fsm = .wait then (s.driveReader r).withWalker (s.walker.answered r) else s

/-! ### DELIVER -/

/-- DELIVER (R161, R201): result and trace handed over together, `fsm <- IDLE`. -/
def State.deliver (s : State) : State :=
  (s.handOver s.walker.response).withWalker s.walker.release

/-! ### The procedure of R151 -/

/-- The levels still to visit, with the base of the table to read from and the trace so far. `read` gives the answer to the read of a
level, so it can be a fixed function of the slot or any sequence of answers (R170). none: the levels ran out, which R151 says is not
reached. -/
def procedureFrom (read : Level → Word64 → Index → ReadResult) (idx : Quad Index) :
    List Level → Word64 → List WalkStep → Option (WalkResult × List WalkStep)
  | [], _, _ => none
  | level :: rest, cur, trace =>
    match read level cur (idx.get level) with
    | .err e => some (.readFailure level cur (idx.get level) e, trace)
    | .ok v =>
      let trace' := trace ++ [{ level := level, tableBaseUsed := cur, indexUsed := idx.get level,
                                rawEntry := v, kind := (classify v level).kind }]
      match classify v level with
      | .invalid => some (.failure level, trace')
      | .block => some (.stopped level, trace')
      | .table oa => procedureFrom read idx rest oa trace'
      | .page oa => some (.success oa (decodePermissions v), trace')

/-- `walk(table_base, va)` as a procedure that runs to its end (R151). -/
def walkProcedure (p : Params) (read : Level → Word64 → Index → ReadResult) (tableBase va : Word64) :
    Option (WalkResult × List WalkStep) :=
  if isMalformed p tableBase va then some (.malformedArgument, [])
  else procedureFrom read (decompose va).indices [0, 1, 2, 3] (p.operandBase tableBase) []

end Sys2Proof.Machine
end

