-- ==== Sys2Proof/Machine/ReadU64.lean ====
section
/-! DEFINITION. The consumed primitive `read_u64` (spec/20_memory.md R50): the memory reader answers a read of one slot. -/

namespace Sys2Proof.Machine

/-- Is this the walker's outstanding read (R34)? -/
def Walker.awaits (w : Walker) (tableBase : Word64) (index : Index) : Bool :=
  w.outstanding == some { tableBase := tableBase, index := index }

/-- `read_u64(tb, ix)` on the memory reader's port: the reader presents its answer; the walker takes it if it is the answer to its
outstanding read (R159, R160) and does not take it otherwise (R162, D28). That answering has no side effect in the reader, on memory
or anything else, is the model's choice: R58, D26 and N19 leave it open (DESIGN CHOICE, log entry 30). -/
def execReadU64 (tableBase : Word64) (index : Index) (s : State) : Host.Outcome State Fault Refusal :=
  let r := s.readU64 tableBase index
  if s.walker.awaits tableBase index then .next (s.takeAnswer r)
  else .next (s.driveReader r)

end Sys2Proof.Machine
end

