-- ==== Sys2Proof/Machine/Dispatch.lean ====
section
/-! DEFINITION. The one match from an instruction to its meaning. -/

namespace Sys2Proof.Machine

/-- One arm per row of spec/opcode_table.json. -/
def exec (i : Instr) (s : State) : Host.Outcome State Fault Refusal :=
  match i with
  | .decompose va => Sys2Proof.Machine.execDecompose va s
  | .classifyInvalid entry level => Sys2Proof.Machine.execClassifyInvalid entry level s
  | .classifyBlock entry level => Sys2Proof.Machine.execClassifyBlock entry level s
  | .classifyTable entry level => Sys2Proof.Machine.execClassifyTable entry level s
  | .classifyPage entry level => Sys2Proof.Machine.execClassifyPage entry level s
  | .decodePermissions entry level => Sys2Proof.Machine.execDecodePermissions entry level s
  | .permUxnClear entry => Sys2Proof.Machine.execPermUxnClear entry s
  | .permPxnClear entry => Sys2Proof.Machine.execPermPxnClear entry s
  | .permAp0 entry => Sys2Proof.Machine.execPermAp0 entry s
  | .permAp1 entry => Sys2Proof.Machine.execPermAp1 entry s
  | .permAp2 entry => Sys2Proof.Machine.execPermAp2 entry s
  | .permAp3 entry => Sys2Proof.Machine.execPermAp3 entry s
  | .walk tableBase va => Sys2Proof.Machine.execWalk tableBase va s
  | .readU64 tableBase index => Sys2Proof.Machine.execReadU64 tableBase index s

end Sys2Proof.Machine
end

