-- ==== Sys2Proof/Machine/Turn.lean ====
section
/-! DEFINITION. One turn of the machine: who acts (the schedule), which operation word is presented on which port (the fetch), and the
turns on which no word is presented (ISSUE, DELIVER, an answer, a table edit, reset). Log entry 4. -/

namespace Sys2Proof.Machine

/-- The turn to take: the schedule's first, `proceed` past its end. -/
def State.turn (s : State) : Turn :=
  match s.schedule with
  | [] => .proceed
  | t :: _ => t

/-- The state with that turn used up. -/
def State.afterTurn (s : State) : State := s.withSchedule s.schedule.tail

/-- The state with the oldest request taken off the request port. -/
def State.dropRequest (s : State) : State :=
  { s with ports := { s.ports with pending := s.ports.pending.tail } }

/-- The RDREQ word of the outstanding read. -/
def RdReq.word (r : RdReq) : RdReqWord := packRdReq r.tableBase r.index

/-- The fetch: the port and the operation word that this turn presents, if it presents one. On `proceed` that is the requester's
oldest request in IDLE, and in WAIT, where a reader is attached, the outstanding read on the reader's port. -/
def State.fetch (s : State) : Option (Port × List Byte) :=
  match s.turn with
  | .operate port word => some (port, word)
  | .proceed =>
    match s.walker.fsm with
    | .idle =>
      match s.ports.pending with
      | [] => none
      | w :: _ => some (.request, bytesLE (portBytes .request) w.toNat)
    | .wait =>
      if s.params.readerAttached then
        s.walker.outstanding.map (fun r => (.reader, bytesLE (portBytes .reader) r.word.toNat))
      else none
    | _ => none
  | _ => none

/-- The state on which the fetched instruction acts: the turn used up, and the request that was fetched off its port. -/
def State.fetched (s : State) : State :=
  match s.turn, s.walker.fsm with
  | .proceed, .idle => s.afterTurn.dropRequest
  | _, _ => s.afterTurn

/-- A turn that presents no operation word. -/
def State.act (s : State) (t : Turn) : Host.Outcome State Fault Refusal :=
  match t with
  | .proceed =>
    match s.walker.fsm with
    | .idle => .next s
    | .issue => .next s.issueRead
    | .wait => .next s
    | .done => .next s.deliver
  | .hold => .next s
  | .operate _ _ => .next s
  | .answer r => .next (s.takeAnswer (r.reported s.params.errorType))
  | .lateAnswer _ => .next s
  | .agentWrite addr bytes => .next (s.agentWrite addr bytes)
  | .agentErase addr count => .next (s.agentErase addr count)
  | .select k =>
    match s.others[k]? with
    | some t => .next (s.selectWalker k t)
    | none => .fault (.noSuchWalker k)
  | .reset => .next s.resetInstance

/-- One turn. -/
def State.takeTurn (s : State) : Host.Outcome State Fault Refusal :=
  match s.fetch with
  | some (port, word) =>
    match decode port word with
    | .ok i => exec i s.fetched
    | .error e => .refused (.undecodable e)
  | none => s.afterTurn.act s.turn

/-- The state whose next turn presents an operation word on a port. -/
def State.presenting (s : State) (port : Port) (word : List Byte) : State :=
  s.withSchedule (.operate port word :: s.schedule)

end Sys2Proof.Machine
end

