-- ==== Sys2Proof/Machine/Step.lean ====
section
/-! DEFINITION. The step, and the placing of one table word where the next step fetches it. -/

namespace Sys2Proof.Machine

/-- One step: one turn of one agent. -/
def step (s : State) : Host.Outcome State Fault Refusal := s.takeTurn

/-- `s` with a word of spec/opcode_table.json presented, in the next turn, on the port `tablePort` gives it. -/
def State.withFetchWord (s : State) (nbits w : Nat) : State :=
  match tablePort nbits w with
  | some port => s.presenting port (bytesLE (portBytes port) w)
  | none => s

end Sys2Proof.Machine
end

