-- ==== Sys2Proof/Machine/Formats.lean ====
section
/-! DEFINITION. The spec's own numeric codes and flat records (spec/30_encoding.md R93 to R97; spec/92_eei_decisions.md D9 to D12). The
machine works on the sum types; these are the views of them that R93 to R97 lay out. Log entry 28. -/

namespace Sys2Proof.Machine

/-- The 2-bit codes of R21. -/
def Fsm.code : Fsm → BitVec 2
  | .idle => 0b00#2
  | .issue => 0b01#2
  | .wait => 0b10#2
  | .done => 0b11#2

/-- The EntryKind codes of R95. -/
def EntryKind.code : EntryKind → BitVec 2
  | .invalid => 0#2
  | .block => 1#2
  | .table => 2#2
  | .page => 3#2

/-- A level as its 2-bit value (R96). -/
def levelCode (l : Level) : BitVec 2 := BitVec.ofNat 2 l.val

/-- Format PERMS: bit 0 PRIV_READ up to bit 5 USER_EXEC (R94). -/
def Perms.pack (p : Perms) : BitVec 6 :=
  BitVec.ofBool p.userExec ++ BitVec.ofBool p.userWrite ++ BitVec.ofBool p.userRead ++
    BitVec.ofBool p.privExec ++ BitVec.ofBool p.privWrite ++ BitVec.ofBool p.privRead

/-- The flags of a PERMS word (R94). -/
def Perms.unpack (b : BitVec 6) : Perms :=
  { privRead := b.getLsbD 0
    privWrite := b.getLsbD 1
    privExec := b.getLsbD 2
    userRead := b.getLsbD 3
    userWrite := b.getLsbD 4
    userExec := b.getLsbD 5 }

/-- `status` (R93, R190). 5 to 7 are never produced. -/
def WalkResult.status : WalkResult → BitVec 3
  | .success _ _ => 0#3
  | .failure _ => 1#3
  | .stopped _ => 2#3
  | .readFailure _ _ _ _ => 3#3
  | .malformedArgument => 4#3

/-- `level`, valid for status 1, 2, 3 (R93). -/
def WalkResult.level? : WalkResult → Option Level
  | .failure l => some l
  | .stopped l => some l
  | .readFailure l _ _ _ => some l
  | .success _ _ => none
  | .malformedArgument => none

/-- `kind`, valid for status 1 and 2: Invalid for 1, Block for 2 (R93). -/
def WalkResult.kind? : WalkResult → Option EntryKind
  | .failure _ => some .invalid
  | .stopped _ => some .block
  | .success _ _ => none
  | .readFailure _ _ _ _ => none
  | .malformedArgument => none

/-- `address`, valid for status 0 (R93). -/
def WalkResult.address? : WalkResult → Option Word64
  | .success a _ => some a
  | .failure _ => none
  | .stopped _ => none
  | .readFailure _ _ _ _ => none
  | .malformedArgument => none

/-- `perms`, valid for status 0 (R93). -/
def WalkResult.perms? : WalkResult → Option Perms
  | .success _ p => some p
  | .failure _ => none
  | .stopped _ => none
  | .readFailure _ _ _ _ => none
  | .malformedArgument => none

/-- `fail_table_base` and `fail_index`, valid for status 3 (R93). -/
def WalkResult.failSlot? : WalkResult → Option RdReq
  | .readFailure _ tb ix _ => some { tableBase := tb, index := ix }
  | .success _ _ => none
  | .failure _ => none
  | .stopped _ => none
  | .malformedArgument => none

/-- `err`, valid for status 3 (R93). -/
def WalkResult.err? : WalkResult → Option ReadError
  | .readFailure _ _ _ e => some e
  | .success _ _ => none
  | .failure _ => none
  | .stopped _ => none
  | .malformedArgument => none

/-- The flat record RESP (R93); none: the field holds no value. -/
structure Resp where
  status : BitVec 3
  level : Option (BitVec 2)
  kind : Option (BitVec 2)
  address : Option Word64
  perms : Option (BitVec 6)
  failTableBase : Option Word64
  failIndex : Option Index
  err : Option ReadError
  traceLen : BitVec 3
  trace : Quad (Option WalkStep)
  deriving DecidableEq, Repr

/-- The flat view of what is handed over (R93). -/
def Response.flat (r : Response) : Resp :=
  { status := r.result.status
    level := r.result.level?.map levelCode
    kind := r.result.kind?.map EntryKind.code
    address := r.result.address?
    perms := r.result.perms?.map Perms.pack
    failTableBase := r.result.failSlot?.map RdReq.tableBase
    failIndex := r.result.failSlot?.map RdReq.index
    err := r.result.err?
    traceLen := BitVec.ofNat 3 r.steps.length
    trace := ⟨r.steps[0]?, r.steps[1]?, r.steps[2]?, r.steps[3]?⟩ }

/-- `rd_ok` of RDRESP (R97): 1 for Ok. -/
def ReadResult.okFlag : ReadResult → BitVec 1
  | .ok _ => 1#1
  | .err _ => 0#1

end Sys2Proof.Machine
end

