-- ==== Sys2Proof/Safety.lean ====
section
/-! DEFINITION. The terms in which claims speak of runs: the invariant of spec/10_state.md R39 with the counts of spec/43_walk.md R164 and
R166, and the schedules that give a walk a sequence of answers (R170). -/

namespace Sys2Proof.Machine

/-- A walk is in progress: `fsm` is ISSUE or WAIT. -/
abbrev Walker.running (w : Walker) : Prop := w.fsm = .issue ∨ w.fsm = .wait

/-- Slot `i` of the trace counts (R26). -/
abbrev Walker.counts (w : Walker) (i : Level) : Prop := i.val < w.traceLen.toNat

/-- The slots read by the steps that count, in order. -/
def Walker.stepSlots (w : Walker) : List RdReq :=
  w.steps.map (fun st => { tableBase := st.tableBaseUsed, index := st.indexUsed })

/-- At most four steps count (R26), and while a walk is in progress as many as its level says (R39 clause 1). -/
abbrev Walker.countInv (w : Walker) : Prop :=
  w.traceLen.toNat ≤ 4 ∧ (w.running → w.traceLen.toNat = w.level.val)

/-- While a walk is in progress past level 0, its table base is the output address of the Table entry just followed (R39 clause 2). -/
abbrev Walker.baseInv (w : Walker) : Prop :=
  ∀ i : Level, w.running → w.level.val = i.val + 1 →
    w.curTable &&& ~~~Config.oaMask = 0#64 ∧
    w.curTable = (w.trace.get i).rawEntry &&& Config.oaMask ∧
    (w.trace.get i).kind = .table

/-- Each step that counts is the step of its own level and index, with the kind its entry has there (R39 clauses 3 and 4). -/
abbrev Walker.stepInv (w : Walker) : Prop :=
  ∀ i : Level, w.counts i →
    (w.trace.get i).level = i ∧
    (w.trace.get i).indexUsed = w.idx.get i ∧
    (w.trace.get i).kind = (classify (w.trace.get i).rawEntry i).kind

/-- Each step but the last is a Table whose output address the next step read from (R39 clauses 3 and 5). -/
abbrev Walker.chainInv (w : Walker) : Prop :=
  ∀ i j : Level, j.val = i.val + 1 → w.counts j →
    (w.trace.get i).kind = .table ∧
    (w.trace.get j).tableBaseUsed = (w.trace.get i).rawEntry &&& Config.oaMask

/-- The table of R166: which trace goes with which result. -/
def Walker.resultAgrees (w : Walker) : Prop :=
  match w.result with
  | .success address perms =>
    w.traceLen = 4#3 ∧ (w.trace.get 3).kind = .page ∧
    address = (w.trace.get 3).rawEntry &&& Config.oaMask ∧
    perms = decodePermissions (w.trace.get 3).rawEntry
  | .failure l => w.traceLen.toNat = l.val + 1 ∧ (w.trace.get l).kind = .invalid
  | .stopped l => w.traceLen.toNat = l.val + 1 ∧ l.val ≤ 2 ∧ (w.trace.get l).kind = .block
  | .readFailure l tableBase index _ =>
    w.traceLen.toNat = l.val ∧ index = w.idx.get l ∧
    ∀ i : Level, l.val = i.val + 1 →
      (w.trace.get i).kind = .table ∧ tableBase = (w.trace.get i).rawEntry &&& Config.oaMask
  | .malformedArgument => w.traceLen = 0#3

/-- The read of a failed level, which has no step (R164). -/
def WalkResult.failedRead : WalkResult → List RdReq
  | .readFailure _ tableBase index _ => [{ tableBase := tableBase, index := index }]
  | _ => []

/-- The reads sent by the walk in progress or just ended are the slots of its steps, then the outstanding or the failed one (R164). -/
def sentAgrees (w : Walker) (p : Ports) : Prop :=
  match w.fsm with
  | .idle => True
  | .issue => p.sent = w.stepSlots
  | .wait => p.sent = w.stepSlots ++ [{ tableBase := w.curTable, index := w.curIndex }]
  | .done => p.sent = w.stepSlots ++ w.result.failedRead

/-- The invariant of one instance (R39, R164, R166). -/
def instanceInv (w : Walker) (p : Ports) : Prop :=
  w.countInv ∧ w.baseInv ∧ w.stepInv ∧ w.chainInv ∧ (w.fsm = .done → w.resultAgrees) ∧ sentAgrees w p

/-- The invariant of the machine: every instance's, and memory in its canonical form. -/
def State.Inv (s : State) : Prop :=
  Memory.wf s.mem = true ∧ instanceInv s.walker s.ports ∧ ∀ t ∈ s.others, instanceInv t.walker t.ports

/-- The schedule that gives a walk a sequence of answers: each read is sent, then answered (R170). -/
def answering : List ReadResult → List Turn
  | [] => []
  | r :: rest => .proceed :: .answer r :: answering rest

/-- The bits of a descriptor that TTW looks at when it is read at a level (R82, R83, R91, R127); every other bit is ignored. -/
def lookedAt (entry : Word64) (level : Level) : Word64 :=
  if entryValid entry = false then 0x1#64
  else if level < 3 then
    if entryType entry = false then 0x3#64 else 0x0000FFFFFFFFF003#64
  else 0x0060FFFFFFFFF0C1#64

/-- The entry and the asserted level of a call of `decode_permissions`, whole or line by line (R98, R144); none for the other
operations. -/
def permissionEntry : Instr → Option AssertedEntry
  | .decodePermissions entry level => some ⟨entry, level⟩
  | .permUxnClear entry => some entry
  | .permPxnClear entry => some entry
  | .permAp0 entry => some entry
  | .permAp1 entry => some entry
  | .permAp2 entry => some entry
  | .permAp3 entry => some entry
  | .decompose _ => none
  | .classifyInvalid _ _ => none
  | .classifyBlock _ _ => none
  | .classifyTable _ _ => none
  | .classifyPage _ _ => none
  | .walk _ _ => none
  | .readU64 _ _ => none

/-- The output lines that carry a whole set of flags. -/
def PermLines.carry (p : Perms) : PermLines :=
  { privRead := some p.privRead
    privWrite := some p.privWrite
    privExec := some p.privExec
    userRead := some p.userRead
    userWrite := some p.userWrite
    userExec := some p.userExec }

/-- `k` steps of the machine. -/
def State.run (k : Nat) (s : State) : Host.Outcome State Fault Refusal := Host.Core.run core k s

end Sys2Proof.Machine
end

