-- ==== Sys2Proof/Certificates/Slice0/Obligations.lean ====
section
/-! DEFINITION. The statements for the provers, from the numbered rules of spec/. Each docstring names the rule it formalises. -/

open Sys2Proof Sys2Proof.Machine

/-! ### AddressDecomposer -/

/-- R110: the five fields are va[47:39], va[38:30], va[29:21], va[20:12], va[11:0]; any 64-bit value is legal; nothing else changes. -/
def Obligations.DecomposeGivesTheFiveFields : Prop :=
  ∀ (va : Word64) (s : State),
    exec (.decompose va) s = .next { s with ports := { s.ports with
      decomposeOut := some
        { l0 := va.extractLsb' 39 9
          l1 := va.extractLsb' 30 9
          l2 := va.extractLsb' 21 9
          l3 := va.extractLsb' 12 9
          offset := va.extractLsb' 0 12 } } }

/-- R111: reassembly gives the low 48 bits back, and any five values in range are the fields of the word assembled from them. -/
def Obligations.DecomposeRoundTrip : Prop :=
  (∀ va : Word64,
    (((decompose va).l0.setWidth 64 : Word64) <<< 39) ||| (((decompose va).l1.setWidth 64 : Word64) <<< 30) |||
      (((decompose va).l2.setWidth 64 : Word64) <<< 21) ||| (((decompose va).l3.setWidth 64 : Word64) <<< 12) |||
      ((decompose va).offset.setWidth 64 : Word64) = va &&& 0x0000FFFFFFFFFFFF#64) ∧
  (∀ (l0 l1 l2 l3 : Index) (offset : Offset),
    decompose (((l0.setWidth 64 : Word64) <<< 39) ||| ((l1.setWidth 64 : Word64) <<< 30) |||
      ((l2.setWidth 64 : Word64) <<< 21) ||| ((l3.setWidth 64 : Word64) <<< 12) ||| (offset.setWidth 64 : Word64)) =
    { l0 := l0, l1 := l1, l2 := l2, l3 := l3, offset := offset })

/-- R112: bits 63:48 are ignored and nothing else is: two addresses give the same fields exactly when their low 48 bits agree, and
then a walk from the same table base starts the same way (both requests malformed or neither). -/
def Obligations.UpperAddressBitsIgnored : Prop :=
  ∀ va va' : Word64,
    (decompose va = decompose va' ↔ va &&& 0x0000FFFFFFFFFFFF#64 = va' &&& 0x0000FFFFFFFFFFFF#64) ∧
    (va &&& 0x0000FFFFFFFFFFFF#64 = va' &&& 0x0000FFFFFFFFFFFF#64 →
      ∀ (tableBase : Word64) (s : State), s.walker.fsm = .idle →
        isMalformed s.params tableBase va = isMalformed s.params tableBase va' →
        exec (.walk tableBase va) s = exec (.walk tableBase va') s)

/-! ### EntryClassifier -/

/-- R121: bit 0 clear, at any level: Invalid, no address, whatever the other bits. -/
def Obligations.InvalidWhenBitZeroClear : Prop :=
  ∀ (entry : Word64) (level : Level) (s : State), entry.getLsbD 0 = false →
    classify entry level = .invalid ∧
    exec (.classifyInvalid entry level) s =
      .next { s with ports := { s.ports with classifyOut := some .invalid } }

/-- R122: levels 0 to 2, bit 0 set, bit 1 clear: Block, which carries nothing, at each of the three levels alike; a walk that is answered
with the entry keeps it raw in the trace. -/
def Obligations.BlockAtUpperLevels : Prop :=
  ∀ (entry : Word64) (level : Level) (s : State),
    level.val ≤ 2 → entry.getLsbD 0 = true → entry.getLsbD 1 = false →
    classify entry level = .block ∧
    exec (.classifyBlock entry level) s =
      .next { s with ports := { s.ports with classifyOut := some .block } } ∧
    (s.walker.level = level → ((s.walker.answerOk entry).trace.get level).rawEntry = entry)

/-- R123: levels 0 to 2, bits 0 and 1 set: Table with the masked entry as the next table's base. -/
def Obligations.TableAtUpperLevels : Prop :=
  ∀ (entry : Word64) (level : Level) (s : State),
    level.val ≤ 2 → entry.getLsbD 0 = true → entry.getLsbD 1 = true →
    classify entry level = .table (entry &&& 0x0000FFFFFFFFF000#64) ∧
    exec (.classifyTable entry level) s =
      .next { s with ports := { s.ports with classifyOut := some (.table (entry &&& 0x0000FFFFFFFFF000#64)) } }

/-- R124 and R90: level 3, bit 0 set, bit 1 not looked at: Page with the masked entry as the page's base; a walk that is answered with the
entry keeps it raw in the trace and decodes its permissions from it. -/
def Obligations.PageAtLevelThree : Prop :=
  ∀ (entry : Word64) (s : State), entry.getLsbD 0 = true →
    classify entry 3 = .page (entry &&& 0x0000FFFFFFFFF000#64) ∧
    exec (.classifyPage entry 3) s =
      .next { s with ports := { s.ports with classifyOut := some (.page (entry &&& 0x0000FFFFFFFFF000#64)) } } ∧
    (s.walker.level = 3 → ((s.walker.answerOk entry).trace.get 3).rawEntry = entry ∧
      (s.walker.answerOk entry).result = .success (entry &&& 0x0000FFFFFFFFF000#64) (decodePermissions entry))

/-- R88 and R89: every word on the classifier's port at every level decodes to one well-formed row, running it presents what
`classify` gives, and the kind is the one the map of R88 lists for the level and bits 1:0. -/
def Obligations.ClassifierMapIsTotal : Prop :=
  ∀ (entry : Word64) (level : Level) (s : State),
    (∃ i : Instr, decode (.classifier level) (bytesLE 8 entry.toNat) = .ok i ∧ i.wf = true ∧
      exec i s = .next { s with ports := { s.ports with classifyOut := some (classify entry level) } }) ∧
    (classify entry level).kind =
      (if entry.extractLsb' 0 2 = 0b00#2 ∨ entry.extractLsb' 0 2 = 0b10#2 then EntryKind.invalid
       else if level = 3 then EntryKind.page
       else if entry.extractLsb' 0 2 = 0b01#2 then EntryKind.block
       else EntryKind.table)

/-- R125: Invalid can occur at every level, Block and Table at levels 0, 1, 2 and only there, Page at level 3 and only there; at level 3
the result is Invalid or Page. -/
def Obligations.KindsPossibleAtEachLevel : Prop :=
  ∀ level : Level,
    (∃ entry, classify entry level = .invalid) ∧
    ((∃ entry, classify entry level = .block) ↔ level.val ≤ 2) ∧
    ((∃ entry oa, classify entry level = .table oa) ↔ level.val ≤ 2) ∧
    ((∃ entry oa, classify entry level = .page oa) ↔ level = 3) ∧
    (level = 3 → ∀ entry, (classify entry level).kind = .invalid ∨ (classify entry level).kind = .page)

/-- R126: an output address is 4096-byte aligned, below 2^48, and has the entry's bits 47:12 in place. -/
def Obligations.OutputAddressShape : Prop :=
  ∀ (entry : Word64) (level : Level) (oa : Word64),
    classify entry level = .table oa ∨ classify entry level = .page oa →
    oa.extractLsb' 0 12 = 0#12 ∧ oa.extractLsb' 48 16 = 0#16 ∧
    oa.extractLsb' 12 36 = entry.extractLsb' 12 36

/-- R91: an ignored bit of a descriptor changes no kind, no output address, no flag and no outcome: two entries that agree on the bits
looked at give the same classification, and answering a walk with one or the other gives the same registers but for the raw entry
in the trace; two such entries of Page kind have the same flags. -/
def Obligations.IgnoredDescriptorBitsHaveNoEffect : Prop :=
  ∀ (entry entry' : Word64) (w : Walker),
    entry &&& lookedAt entry w.level = entry' &&& lookedAt entry w.level →
    classify entry w.level = classify entry' w.level ∧
    w.answerOk entry' =
      { w.answerOk entry with trace := w.trace.set w.level { w.stepFor entry with rawEntry := entry' } } ∧
    (w.level = 3 → entry.getLsbD 0 = true → decodePermissions entry = decodePermissions entry')

/-! ### PermissionDecoder -/

/-- R135: on a Page-kind entry asserted to be read at level 3 the six flags are those of the pseudocode, and nothing else changes. -/
def Obligations.DecodePermissionsGivesSixFlags : Prop :=
  ∀ (entry : Word64) (s : State), entry.getLsbD 0 = true →
    exec (.decodePermissions entry 3) s = .next { s with ports := { s.ports with
      permsOut := some
        { privRead := true
          privWrite := !entry.getLsbD 7
          privExec := !entry.getLsbD 53
          userRead := entry.getLsbD 6
          userWrite := entry.getLsbD 6 && !entry.getLsbD 7
          userExec := !entry.getLsbD 54 } } }

/-- R136, R144: for a word of Page kind USER_EXEC iff UXN is clear, whatever the other bits; as a bit of the whole result so for every
word. That the flag has an output line of its own, which keeps the precondition of R144 ("is refused otherwise"), is the model's
choice (log entry 16). -/
def Obligations.UserExecFollowsUxn : Prop :=
  ∀ (entry : Word64) (s : State),
    (entry.getLsbD 0 = true →
      exec (.permUxnClear ⟨entry, 3⟩) s = .next { s with ports := { s.ports with
        permLines := { s.ports.permLines with userExec := some (!entry.getLsbD 54) } } }) ∧
    (decodePermissions entry).userExec = !entry.getLsbD 54

/-- R137, R144: for a word of Page kind PRIV_EXEC iff PXN is clear, whatever the other bits; as a bit of the whole result so for every
word. That the flag has an output line of its own, which keeps the precondition of R144 ("is refused otherwise"), is the model's
choice (log entry 16). -/
def Obligations.PrivExecFollowsPxn : Prop :=
  ∀ (entry : Word64) (s : State),
    (entry.getLsbD 0 = true →
      exec (.permPxnClear ⟨entry, 3⟩) s = .next { s with ports := { s.ports with
        permLines := { s.ports.permLines with privExec := some (!entry.getLsbD 53) } } }) ∧
    (decodePermissions entry).privExec = !entry.getLsbD 53

/-- R138 to R141, R144: the table of the AP field for words of Page kind, each row on the four read and write lines. That these are output
lines of their own, which keep the precondition of R144, is the model's choice (log entry 16). -/
def Obligations.AccessPermissionTable : Prop :=
  ∀ (entry : Word64) (s : State), entry.getLsbD 0 = true →
    (entry.extractLsb' 6 2 = 0b00#2 →
      exec (.permAp0 ⟨entry, 3⟩) s = .next { s with ports := { s.ports with permLines := { s.ports.permLines with
        privRead := some true, privWrite := some true, userRead := some false, userWrite := some false } } }) ∧
    (entry.extractLsb' 6 2 = 0b01#2 →
      exec (.permAp1 ⟨entry, 3⟩) s = .next { s with ports := { s.ports with permLines := { s.ports.permLines with
        privRead := some true, privWrite := some true, userRead := some true, userWrite := some true } } }) ∧
    (entry.extractLsb' 6 2 = 0b10#2 →
      exec (.permAp2 ⟨entry, 3⟩) s = .next { s with ports := { s.ports with permLines := { s.ports.permLines with
        privRead := some true, privWrite := some false, userRead := some false, userWrite := some false } } }) ∧
    (entry.extractLsb' 6 2 = 0b11#2 →
      exec (.permAp3 ⟨entry, 3⟩) s = .next { s with ports := { s.ports with permLines := { s.ports.permLines with
        privRead := some true, privWrite := some false, userRead := some true, userWrite := some false } } })

/-- R135 to R141 together: whatever the Page-kind word and the state, the rows that the word decodes to on the three line ports, run one
after the other, put exactly the flags of `decode_permissions` on the six lines and touch nothing else. The lines and their ports are
the model's choice (log entries 1 and 16). -/
def Obligations.OutputLinesMakeUpThePermissions : Prop :=
  ∀ (entry : Word64) (s : State), entry.getLsbD 0 = true → ∃ i j k : Instr,
    decode (.userExecLine 3) (bytesLE 8 entry.toNat) = .ok i ∧
    decode (.privExecLine 3) (bytesLE 8 entry.toNat) = .ok j ∧
    decode (.accessLines 3) (bytesLE 8 entry.toNat) = .ok k ∧
    ∃ s1 s2 : State, exec i s = .next s1 ∧ exec j s1 = .next s2 ∧
      exec k s2 = .next { s with ports := { s.ports with permLines := PermLines.carry (decodePermissions entry) } }

/-- R144: a call of `decode_permissions` is refused by name outside Page kind and nowhere else. That a call of one of its rows alone
(uxn_clear, pxn_clear, ap0 to ap3) is refused there too is the model's choice (log entry 16). In a walk only the final Page entry's
permissions are decoded, so no Block, Table or Invalid entry ever gets any. -/
def Obligations.PermissionsOnlyForPageEntries : Prop :=
  (∀ (i : Instr) (entry : AssertedEntry) (s : State),
    permissionEntry i = some entry → i.wf = true →
    (exec i s = .refused .notPageKind ↔ ¬ (entry.level = 3 ∧ entry.word.getLsbD 0 = true))) ∧
  (∀ (w : Walker) (entry address : Word64) (perms : Perms),
    (w.answerOk entry).fsm = .done → (w.answerOk entry).result = .success address perms →
    w.level = 3 ∧ entry.getLsbD 0 = true ∧ perms = decodePermissions entry)

/-- R142: PRIV_READ always, the three other access flags as bits 7 and 6 say, the implications, and exactly sixteen results. -/
def Obligations.PermissionSetsArePossibleSixteen : Prop :=
  (∀ entry : Word64,
    (decodePermissions entry).privRead = true ∧
    (decodePermissions entry).privWrite = !entry.getLsbD 7 ∧
    (decodePermissions entry).userRead = entry.getLsbD 6 ∧
    (decodePermissions entry).userWrite = (entry.getLsbD 6 && !entry.getLsbD 7) ∧
    ((decodePermissions entry).userWrite = true →
      (decodePermissions entry).userRead = true ∧ (decodePermissions entry).privWrite = true) ∧
    ((decodePermissions entry).userRead = true → (decodePermissions entry).privRead = true)) ∧
  (∀ b : BitVec 6, (∃ entry : Word64, (decodePermissions entry).pack = b) ↔
    b ∈ [0x27#6, 0x23#6, 0x07#6, 0x03#6, 0x3F#6, 0x3B#6, 0x1F#6, 0x1B#6,
         0x25#6, 0x21#6, 0x05#6, 0x01#6, 0x2D#6, 0x29#6, 0x0D#6, 0x09#6])

/-! ### WalkEngine: the transitions -/

/-- R157: `walk` in IDLE. A malformed request ends at once with an empty trace and no read; any other starts a walk at level 0 with
the four indices latched and the table base as given (its operand of `ADDR_BITS` bits: R7, log entry 29). That the record of reads
sent is emptied is the model's choice (log entry 21). -/
def Obligations.AcceptTransition : Prop :=
  ∀ (tableBase va : Word64) (s : State), s.walker.fsm = .idle →
    (isMalformed s.params tableBase va = true →
      exec (.walk tableBase va) s = .next { s with
        walker := { s.walker with traceLen := 0#3, result := .malformedArgument, fsm := .done }
        ports := { s.ports with sent := [] } }) ∧
    (isMalformed s.params tableBase va = false →
      exec (.walk tableBase va) s = .next { s with
        walker := { s.walker with
          idx := ⟨va.extractLsb' 39 9, va.extractLsb' 30 9, va.extractLsb' 21 9, va.extractLsb' 12 9⟩
          curTable := s.params.operandBase tableBase
          level := 0
          traceLen := 0#3
          fsm := .issue }
        ports := { s.ports with sent := [] } })

/-- R35, R234: a request presented in any state but IDLE is not taken: the walker's registers stay and the requester keeps it. That it
is kept at the end of a list of presented requests is the model's form (log entry 18). -/
def Obligations.BusyWalkerTakesNoRequest : Prop :=
  ∀ (tableBase va : Word64) (s : State), s.walker.fsm ≠ .idle →
    exec (.walk tableBase va) s = .next { s with
      ports := { s.ports with pending := s.ports.pending ++ [tableBase ++ va] } }

/-- R158: in ISSUE the walker's own act sends the read of `(cur_table, idx[level])`, goes to WAIT and writes nothing else. -/
def Obligations.IssueTransition : Prop :=
  ∀ s : State, s.turn = .proceed → s.walker.fsm = .issue →
    step s = .next { s with
      schedule := s.schedule.tail
      walker := { s.walker with fsm := .wait }
      ports := { s.ports with
        sent := s.ports.sent ++ [{ tableBase := s.walker.curTable, index := s.walker.idx.get s.walker.level }] } }

/-- R159: in WAIT an answer Ok(v) appends the step of the old registers and ends the walk at an Invalid, a Block or a Page entry, or
follows a Table entry to the next level. That the answer taken still stands on the reader's port is the model's choice (log entry 31),
and so is that answering changes no memory (log entry 30). -/
def Obligations.AnswerOkTransition : Prop :=
  ∀ (s : State) (v : Word64), s.turn = .answer (.ok v) → s.walker.fsm = .wait →
    step s = .next { s with
      schedule := s.schedule.tail
      ports := { s.ports with readerOut := some (.ok v) }
      walker :=
        let appended : Walker := { s.walker with
          trace := s.walker.trace.set s.walker.level
            { level := s.walker.level
              tableBaseUsed := s.walker.curTable
              indexUsed := s.walker.idx.get s.walker.level
              rawEntry := v
              kind := (classify v s.walker.level).kind }
          traceLen := BitVec.ofNat 3 (s.walker.level.val + 1) }
        match classify v s.walker.level with
        | .invalid => { appended with result := .failure s.walker.level, fsm := .done }
        | .block => { appended with result := .stopped s.walker.level, fsm := .done }
        | .table oa => { appended with curTable := oa, level := s.walker.level + 1, fsm := .issue }
        | .page oa => { appended with result := .success oa (decodePermissions v), fsm := .done } }

/-- R160: in WAIT an answer Err(e) ends the walk with the slot and the error reported, the trace unchanged. `e` is an element of the
type that the platform has for `ReadError` (R7, log entry 10). That the answer taken still stands on the reader's port is the model's
choice (log entry 31), and so is that answering changes no memory (log entry 30). -/
def Obligations.AnswerErrTransition : Prop :=
  ∀ (s : State) (e : ReadError), s.turn = .answer (.err e) → s.walker.fsm = .wait →
    step s = .next { s with
      schedule := s.schedule.tail
      ports := { s.ports with readerOut := some (.err (s.params.errorType.element e)) }
      walker := { s.walker with
        result := .readFailure s.walker.level s.walker.curTable (s.walker.idx.get s.walker.level)
          (s.params.errorType.element e)
        fsm := .done } }

/-- R161: in DONE the requester takes result and trace, `fsm <- IDLE`. That the dead registers keep their values is the model's choice
(log entry 22), and so is the record of what was handed over (log entry 21). -/
def Obligations.DeliverTransition : Prop :=
  ∀ s : State, s.turn = .proceed → s.walker.fsm = .done →
    step s = .next { s with
      schedule := s.schedule.tail
      walker := { s.walker with fsm := .idle }
      ports := { s.ports with
        delivered := s.ports.delivered ++
          [{ result := s.walker.result
             steps := [s.walker.trace.at0, s.walker.trace.at1, s.walker.trace.at2, s.walker.trace.at3].take
               s.walker.traceLen.toNat }] } }

/-- R50: `read_u64`. The reader presents its answer; in WAIT, on the outstanding slot, the walker takes it; otherwise it does not (log
entry 19). That the answer stands on the reader's port afterwards is the model's choice (log entry 31), and so is that answering changes
no memory (log entry 30: R58, D26 and N19 leave the reader's side effects open). -/
def Obligations.ReadU64IsAnsweredByTheReader : Prop :=
  ∀ (tableBase : Word64) (index : Index) (s : State),
    (s.walker.fsm = .wait → tableBase = s.walker.curTable → index = s.walker.idx.get s.walker.level →
      exec (.readU64 tableBase index) s = .next { s with
        walker := s.walker.answered (s.readU64 tableBase index)
        ports := { s.ports with readerOut := some (s.readU64 tableBase index) } }) ∧
    ((s.walker.fsm ≠ .wait ∨ tableBase ≠ s.walker.curTable ∨ index ≠ s.walker.idx.get s.walker.level) →
      exec (.readU64 tableBase index) s = .next { s with
        ports := { s.ports with readerOut := some (s.readU64 tableBase index) } })

/-- R51, R53: where the reader serves the slot and memory lists its 8 bytes from `slot_addr` on, the answer is Ok of the value whose bits
8k+7:8k are the byte at `slot_addr + k` in little-endian order, and at `slot_addr + 7 - k` in big-endian order (the parameter's other value; the
spec describes only the default). That the attached reader answers from memory as it stands is the model's choice (log entry 32). -/
def Obligations.ReaderAssemblesTheSlot : Prop :=
  ∀ (s : State) (tableBase : Word64) (index : Index) (byteAt : Fin 8 → Byte),
    (s.params.serveUnaligned = true ∨ s.params.slotSum tableBase index % 8 = 0) →
    (s.params.serveWrapped = true ∨ s.params.slotSum tableBase index + 7 < 2 ^ 64) →
    (∀ k : Fin 8, Memory.readByte s.mem ((s.params.slotSum tableBase index + k.val) % 2 ^ 64) = some (byteAt k)) →
    ∃ v : Word64, s.readU64 tableBase index = .ok v ∧
      ∀ k : Fin 8, v.extractLsb' (8 * k.val) 8 =
        (match s.params.byteOrder with
         | .little => byteAt k
         | .big => byteAt (7 - k))

/-- R99, R52: where one of the slot's 8 bytes is not listed, or the reader does not serve the slot, the answer is the reader's
error. -/
def Obligations.ReaderRefusesUnlistedSlots : Prop :=
  ∀ (s : State) (tableBase : Word64) (index : Index),
    ((∃ k : Fin 8, Memory.readByte s.mem ((s.params.slotSum tableBase index + k.val) % 2 ^ 64) = none) ∨
      (s.params.serveUnaligned = false ∧ s.params.slotSum tableBase index % 8 ≠ 0) ∨
      (s.params.serveWrapped = false ∧ 2 ^ 64 ≤ s.params.slotSum tableBase index + 7)) →
    s.readU64 tableBase index = .err (s.params.errorType.element s.params.absentErr)

/-- R162 (D28) and R231: an answer in any state but WAIT, and a late answer in any state, changes nothing. -/
def Obligations.StrayAnswersChangeNothing : Prop :=
  ∀ s : State,
    (∀ r, s.turn = .answer r → s.walker.fsm ≠ .wait → step s = .next { s with schedule := s.schedule.tail }) ∧
    (∀ r, s.turn = .lateAnswer r → step s = .next { s with schedule := s.schedule.tail })

/-- R162, R239: whatever the state, a turn on which nobody acts changes nothing but the schedule. In WAIT with no reader attached, and
in IDLE with no request, every number of steps changes nothing but the schedule, as long as it holds only turns on which the walker is
free to act by itself or nobody acts: no time limit, no retry, no spontaneous start. -/
def Obligations.WaitHangsWithoutAnAnswer : Prop :=
  ∀ s : State,
    (s.turn = .hold → step s = .next { s with schedule := s.schedule.tail }) ∧
    ((s.walker.fsm = .wait ∧ s.params.readerAttached = false) ∨ (s.walker.fsm = .idle ∧ s.ports.pending = []) →
      (∀ rest, s.schedule = .proceed :: rest → step s = .next { s with schedule := rest }) ∧
      ∀ k : Nat, (∀ u ∈ s.schedule.take k, u = .proceed ∨ u = .hold) →
        s.run k = .next { s with schedule := s.schedule.drop k })

/-- R162: no other transitions. Every step leaves the registers alone or is ACCEPT in IDLE of the very request that is presented, ISSUE in
ISSUE, ANSWER-OK or ANSWER-ERR in WAIT of the very answer that the reader gives to the outstanding read (by an answer turn, or from
memory), DELIVER in DONE, a reset, or a turn to another instance. -/
def Obligations.NoOtherTransitions : Prop :=
  ∀ s t : State, step s = .next t →
    t.walker = s.walker ∨
    (s.walker.fsm = .idle ∧ ∃ word tableBase va,
      s.fetch = some (.request, word) ∧ decode .request word = .ok (.walk tableBase va) ∧
      t.walker = if isMalformed s.params tableBase va then s.walker.reject
        else s.walker.start (s.params.operandBase tableBase) va) ∨
    (s.walker.fsm = .issue ∧ s.turn = .proceed ∧ t.walker = { s.walker with fsm := .wait }) ∨
    (s.walker.fsm = .wait ∧ ∃ r, s.turn = .answer r ∧ t.walker = s.walker.answered (r.reported s.params.errorType)) ∨
    (s.walker.fsm = .wait ∧ ∃ word,
      s.fetch = some (.reader, word) ∧
      decode .reader word = .ok (.readU64 s.walker.curTable (s.walker.idx.get s.walker.level)) ∧
      t.walker = s.walker.answered (s.readU64 s.walker.curTable (s.walker.idx.get s.walker.level))) ∨
    (s.walker.fsm = .done ∧ s.turn = .proceed ∧ t.walker = { s.walker with fsm := .idle }) ∨
    (s.turn = .reset ∧ t.walker.fsm = .idle ∧ t.walker.traceLen = 0#3) ∨
    (∃ k other, s.turn = .select k ∧ s.others[k]? = some other ∧ t.walker = other.walker)

/-- R163: an answer either ends the walk at its level or raises the level by exactly 1, and only from levels 0 to 2. -/
def Obligations.LevelRisesByOneOrTheWalkEnds : Prop :=
  ∀ (w : Walker) (r : ReadResult),
    ((w.answered r).fsm = .done ∧ (w.answered r).level = w.level) ∨
    ((w.answered r).fsm = .issue ∧ w.level.val ≤ 2 ∧ (w.answered r).level.val = w.level.val + 1)

/-! ### Reset -/

/-- R40, R230: after reset `fsm` is IDLE, `trace_len` 0, no read outstanding, nothing presented on the request, response and
memory-reader ports, and nothing happens until a request is presented. (The values of the other registers are the model's choice, log
entry 6, and are not stated.) -/
def Obligations.ResetState : Prop :=
  State.reset.walker.fsm = .idle ∧ State.reset.walker.traceLen = 0#3 ∧
  State.reset.walker.outstanding = none ∧
  State.reset.ports.pending = [] ∧ State.reset.ports.delivered = [] ∧ State.reset.ports.readerOut = none ∧
  step State.reset = .next State.reset

/-- R231, S11: a reset in any state abandons the walk: IDLE, empty trace, no read outstanding, nothing presented, nothing delivered;
memory, the parameters and the other instances stay. That a reset also takes the requests and combinational outputs off the ports is
the model's choice (log entry 7). -/
def Obligations.ResetAbandonsTheWalk : Prop :=
  ∀ s : State, s.turn = .reset →
    ∃ t : State, step s = .next t ∧
      t.walker.fsm = .idle ∧ t.walker.traceLen = 0#3 ∧ t.walker.outstanding = none ∧
      t.ports = { Ports.reset with delivered := s.ports.delivered } ∧
      t.others = s.others ∧ t.mem = s.mem ∧ t.params = s.params ∧ t.schedule = s.schedule.tail

/-! ### Invariants -/

/-- The invariant of R39, R164 and R166, and memory's canonical form, hold at reset. -/
def Obligations.InvariantHoldsAtReset : Prop := State.reset.Inv

/-- R39: every step from a state that meets the invariant gives a state that meets it. -/
def Obligations.StepKeepsTheInvariant : Prop :=
  ∀ s t : State, s.Inv → step s = .next t → t.Inv

/-- R164, R166: every step, from a state that meets the invariant, that leads to DONE leads to a state in which the reads made are exactly
the slots of the trace's steps, in order, and one more for a failed read; their number, the number of steps and the last step's kind
are those of R166's table. -/
def Obligations.EndedWalkMadeTheReadsOfItsTrace : Prop :=
  ∀ s t : State, s.Inv → step s = .next t → t.walker.fsm = .done →
    t.walker.steps.length = t.walker.traceLen.toNat ∧
    (match t.walker.result with
     | .success _ _ =>
       t.ports.sent = t.walker.stepSlots ∧ t.ports.sent.length = 4 ∧ t.walker.steps.length = 4 ∧
       (t.walker.trace.get 3).kind = .page
     | .failure l =>
       t.ports.sent = t.walker.stepSlots ∧ t.ports.sent.length = l.val + 1 ∧ t.walker.steps.length = l.val + 1 ∧
       (t.walker.trace.get l).kind = .invalid
     | .stopped l =>
       t.ports.sent = t.walker.stepSlots ∧ t.ports.sent.length = l.val + 1 ∧ t.walker.steps.length = l.val + 1 ∧
       l.val ≤ 2 ∧ (t.walker.trace.get l).kind = .block
     | .readFailure l tableBase index _ =>
       t.ports.sent = t.walker.stepSlots ++ [{ tableBase := tableBase, index := index }] ∧
       t.ports.sent.length = l.val + 1 ∧ t.walker.steps.length = l.val ∧
       ∀ i : Level, i.val < l.val → (t.walker.trace.get i).kind = .table
     | .malformedArgument => t.ports.sent = [] ∧ t.walker.steps = [])

/-! ### Runs of a walk -/

/-- R170, first part: let the memory reader answer with any sequence of answers. From an idle walker, `walk` accepted and then run with
those answers reaches DONE, and there result and trace are what the procedure of R151 returns when the read at level n returns the n-th
answer (its error an element of the platform's `ReadError`, log entry 10). The answers are turns of the schedule (log entry 4). -/
def Obligations.WalkAgreesWithTheProcedureForAnyAnswers : Prop :=
  ∀ (s : State) (tableBase va : Word64) (answers : Quad ReadResult) (rest : List Turn),
    s.walker.fsm = .idle →
    s.schedule = answering answers.toList ++ rest →
    ∃ (accepted t : State) (n : Nat), n ≤ 4 ∧
      exec (.walk tableBase va) s = .next accepted ∧
      accepted.run (2 * n) = .next t ∧
      t.walker.fsm = .done ∧
      walkProcedure s.params (fun level _ _ => (answers.get level).reported s.params.errorType) tableBase va =
        some (t.walker.result, t.walker.steps)

/-- R170, second part: where an attached reader answers from a memory that nobody changes, the run of the machine from `walk` delivers,
within 9 further steps, exactly the result and trace of `walk(table_base, va)` evaluated with that reader, leaves the walker in IDLE,
and changes no memory. An empty schedule stands for neighbours that act at once (log entry 4), and the attached reader's answers have no
side effect and are never stale (log entries 30 and 32). -/
def Obligations.WalkDeliversTheProcedureOverFixedMemory : Prop :=
  ∀ (s : State) (tableBase va : Word64),
    s.walker.fsm = .idle → s.schedule = [] → s.params.readerAttached = true →
    ∃ (accepted t : State) (k : Nat) (response : Response), k ≤ 9 ∧
      exec (.walk tableBase va) s = .next accepted ∧
      accepted.run k = .next t ∧
      t.walker.fsm = .idle ∧ t.mem = s.mem ∧
      t.ports.delivered = s.ports.delivered ++ [response] ∧
      walkProcedure s.params (fun _ cur index => s.readU64 cur index) tableBase va =
        some (response.result, response.steps)

/-- R163, R247: where reads are answered and results taken, any walker that is not idle, at whatever level and in whatever state, is idle
again after at most two steps for each level still to visit and one for the hand-over, and hands over exactly one response. An
empty schedule stands for neighbours that act at once (log entry 4). -/
def Obligations.EveryWalkEnds : Prop :=
  ∀ s : State, s.schedule = [] → s.params.readerAttached = true → s.walker.fsm ≠ .idle →
    ∃ (k : Nat) (t : State) (response : Response), k ≤ 2 * (4 - s.walker.level.val) + 1 ∧
      s.run k = .next t ∧ t.walker.fsm = .idle ∧ t.ports.delivered = s.ports.delivered ++ [response]

/-- R28, R230: nothing is carried over. Two machines that differ only in the registers of an idle walker (other than `fsm`) hand over the
same responses, and present the same outputs, after any number of steps, whatever the agents around them do. -/
def Obligations.IdleRegistersCarryNothingOver : Prop :=
  ∀ (s : State) (w : Walker) (k : Nat) (t : State), s.walker.fsm = .idle → w.fsm = .idle →
    s.run k = .next t →
    ∃ t' : State, ({ s with walker := w } : State).run k = .next t' ∧
      t'.ports = t.ports ∧ t'.walker.fsm = t.walker.fsm ∧ t'.mem = t.mem

/-- R211: instances share no state. A step that is no turn to another instance leaves the others as they are and does not depend on
them: with other instances in their place it gives the same outcome. -/
def Obligations.InstancesShareNothing : Prop :=
  ∀ (s : State) (others : List Ttw), (∀ k, s.turn ≠ .select k) →
    (∀ t, step s = .next t → t.others = s.others ∧
      step { s with others := others } = .next { t with others := others }) ∧
    (∀ r, step s = .refused r → step { s with others := others } = .refused r)

/-- R211: a turn to another instance only changes which one takes the steps: that one's registers and ports come in, the current one's
go to its place; a number the platform does not have is a fault (the model's form, log entry 20). That memory and the reader stay, being
shared by all instances, is the model's choice (R211 and D16 say that they may share the reader; log entry 33). -/
def Obligations.SelectChangesPlaces : Prop :=
  ∀ (s : State) (k : Nat), s.turn = .select k →
    (∀ other, s.others[k]? = some other →
      step s = .next { s with
        schedule := s.schedule.tail
        walker := other.walker
        ports := other.ports
        others := s.others.set k { walker := s.walker, ports := s.ports } }) ∧
    (s.others[k]? = none → step s = .fault (.noSuchWalker k))

/-! ### Memory -/

/-- R2, R56: no instruction writes memory, and none changes the parameters, the other instances or the schedule: every byte reads as
before. That the attached reader's answer has no side effect on memory either is the model's choice (log entry 30). -/
def Obligations.NoInstructionWritesMemory : Prop :=
  ∀ (i : Instr) (s t : State), exec i s = .next t →
    (∀ a : Nat, Memory.readByte t.mem a = Memory.readByte s.mem a) ∧
    t.params = s.params ∧ t.others = s.others ∧ t.schedule = s.schedule

/-- R2, R31: over whole steps. Only another agent's edit changes memory; no step ever changes the parameters. That the
attached reader's answer has no side effect on memory is the model's choice (log entry 30). -/
def Obligations.OnlyOtherAgentsChangeMemory : Prop :=
  ∀ s t : State, step s = .next t →
    t.params = s.params ∧
    ((∀ a bytes, s.turn ≠ .agentWrite a bytes) → (∀ a count, s.turn ≠ .agentErase a count) → t.mem = s.mem)

/-- Other agents' edits (R62, R238): a write puts its bytes at the addresses from `addr` on, modulo 2^64, an erase makes `count` bytes
from there unreadable, every other byte of the 64-bit space reads as before, and nothing else of the machine changes. -/
def Obligations.AgentEditsChangeOnlyTheirBytes : Prop :=
  ∀ (s t : State) (addr : Word64), Memory.wf s.mem = true → step s = .next t →
    (∀ bytes : List Byte, s.turn = .agentWrite addr bytes → bytes.length ≤ 2 ^ 64 →
      (∀ a : Nat, a < 2 ^ 64 →
        Memory.readByte t.mem a =
          (match bytes[(a + 2 ^ 64 - addr.toNat) % 2 ^ 64]? with
           | some b => some b
           | none => Memory.readByte s.mem a)) ∧
      t = { s with mem := t.mem, schedule := s.schedule.tail }) ∧
    (∀ count : Nat, s.turn = .agentErase addr count →
      (∀ a : Nat, a < 2 ^ 64 →
        Memory.readByte t.mem a =
          (if (a + 2 ^ 64 - addr.toNat) % 2 ^ 64 < count then none else Memory.readByte s.mem a)) ∧
      t = { s with mem := t.mem, schedule := s.schedule.tail })

/-- R65, R240: TTW keeps no copy, so a change to a table is seen by the next read as far as TTW is concerned: after another agent's turn
writes a slot's 8 bytes (R51, R53), `read_u64` of that slot answers with the value written, for every slot the reader serves (log
entry 12). That the attached reader answers from memory as just edited is the model's choice: R65 leaves staleness to the reader (log
entries 8, 19, 27 and 32). -/
def Obligations.TableEditIsSeenByLaterReads : Prop :=
  ∀ (s t : State) (tableBase : Word64) (index : Index) (v : Word64),
    (s.params.serveUnaligned = true ∨ s.params.slotSum tableBase index % 8 = 0) →
    (s.params.serveWrapped = true ∨ s.params.slotSum tableBase index + 7 < 2 ^ 64) →
    s.turn = .agentWrite (s.params.slotAddr tableBase index) (slotBytesOf s.params.byteOrder v) → step s = .next t →
    t.readU64 tableBase index = .ok v

/-- R55, R51: where the parameter `slot_addr` gives no other address, a slot of a 4096-byte-aligned table lies in the table's own frame,
at `tb + 8*ix`, without wrapping, and 8-byte aligned (R54); and any slot is at `tb + 8*ix` modulo 2^64, or at the address that the
parameter gives instead (R7, log entry 11). -/
def Obligations.SlotStaysInItsTable : Prop :=
  ∀ (p : Params) (tableBase : Word64) (index : Index),
    (∀ addr, p.overrideOf tableBase index = some addr → p.slotAddr tableBase index = addr) ∧
    (p.overrideOf tableBase index = none →
      (p.slotAddr tableBase index).toNat = (tableBase.toNat + 8 * index.toNat) % 2 ^ 64 ∧
      (tableBase.toNat % 4096 = 0 →
        (p.slotAddr tableBase index).toNat = tableBase.toNat + 8 * index.toNat ∧
        tableBase.toNat ≤ (p.slotAddr tableBase index).toNat ∧
        (p.slotAddr tableBase index).toNat ≤ tableBase.toNat + 4088 ∧
        (p.slotAddr tableBase index).toNat / 4096 = tableBase.toNat / 4096 ∧
        (p.slotAddr tableBase index).toNat % 8 = 0))

/-- R68: with the default `slot_addr`, two pairs name the same slot exactly when their sums agree modulo 2^64, and for aligned tables only
if both parts are equal. -/
def Obligations.SlotAliasing : Prop :=
  ∀ (p : Params) (tb tb' : Word64) (ix ix' : Index),
    p.overrideOf tb ix = none → p.overrideOf tb' ix' = none →
    (p.slotAddr tb ix = p.slotAddr tb' ix' ↔
      (tb.toNat + 8 * ix.toNat) % 2 ^ 64 = (tb'.toNat + 8 * ix'.toNat) % 2 ^ 64) ∧
    (tb.toNat % 4096 = 0 → tb'.toNat % 4096 = 0 → p.slotAddr tb ix = p.slotAddr tb' ix' → tb = tb' ∧ ix = ix')

/-! ### Frames -/

/-- R113, R127, R143, R38: an operation of the three combinational sub-blocks has no effect on a walk: no register, no byte of memory, no
request, read or response changes, and only its own output does. That the other outputs stay as last presented, and that the permission
rows have lines of their own, is the model's choice (log entries 26 and 16). -/
def Obligations.CombinationalOperationsFrame : Prop :=
  ∀ (i : Instr) (s t : State), exec i s = .next t → (∀ tb va, i ≠ .walk tb va) → (∀ tb ix, i ≠ .readU64 tb ix) →
    t.walker = s.walker ∧ (∀ a : Nat, Memory.readByte t.mem a = Memory.readByte s.mem a) ∧
    t.ports.pending = s.ports.pending ∧ t.ports.readerOut = s.ports.readerOut ∧
    t.ports.sent = s.ports.sent ∧ t.ports.delivered = s.ports.delivered ∧
    ((∀ va, i ≠ .decompose va) → t.ports.decomposeOut = s.ports.decomposeOut) ∧
    ((∀ e l, i ≠ .classifyInvalid e l) → (∀ e l, i ≠ .classifyBlock e l) → (∀ e l, i ≠ .classifyTable e l) →
      (∀ e l, i ≠ .classifyPage e l) → t.ports.classifyOut = s.ports.classifyOut) ∧
    ((∀ e l, i ≠ .decodePermissions e l) → t.ports.permsOut = s.ports.permsOut) ∧
    ((∀ e, i ≠ .permUxnClear e) → t.ports.permLines.userExec = s.ports.permLines.userExec) ∧
    ((∀ e, i ≠ .permPxnClear e) → t.ports.permLines.privExec = s.ports.permLines.privExec) ∧
    ((∀ e, i ≠ .permAp0 e) → (∀ e, i ≠ .permAp1 e) → (∀ e, i ≠ .permAp2 e) → (∀ e, i ≠ .permAp3 e) →
      t.ports.permLines.privRead = s.ports.permLines.privRead ∧
      t.ports.permLines.privWrite = s.ports.permLines.privWrite ∧
      t.ports.permLines.userRead = s.ports.permLines.userRead ∧
      t.ports.permLines.userWrite = s.ports.permLines.userWrite)

/-- The frame of `walk` (R35, R157): no byte of memory, no slot of the trace, no response and no combinational output changes; the result
changes only for a malformed request accepted in IDLE; outside IDLE no register changes, and in IDLE no request the
requester still holds. -/
def Obligations.WalkRequestFrame : Prop :=
  ∀ (tableBase va : Word64) (s t : State), exec (.walk tableBase va) s = .next t →
    (∀ a : Nat, Memory.readByte t.mem a = Memory.readByte s.mem a) ∧
    t.walker.trace = s.walker.trace ∧
    (isMalformed s.params tableBase va = false → t.walker.result = s.walker.result) ∧
    (isMalformed s.params tableBase va = true →
      t.walker.idx = s.walker.idx ∧ t.walker.curTable = s.walker.curTable ∧ t.walker.level = s.walker.level) ∧
    (s.walker.fsm ≠ .idle → t.walker = s.walker ∧ t.ports.sent = s.ports.sent) ∧
    (s.walker.fsm = .idle → t.ports.pending = s.ports.pending) ∧
    t.ports = { s.ports with pending := t.ports.pending, sent := t.ports.sent }

/-- The frame of `read_u64` (R50, R56, R159, R160): no byte of memory changes; the indices and every trace slot but the level's
own stay; the ports change only in the reader's answer; outside WAIT no register changes. That an answer changes no memory on the
reader's side is the model's choice (log entry 30), and so is that the answer stands on the port (log entry 31). -/
def Obligations.ReadU64Frame : Prop :=
  ∀ (tableBase : Word64) (index : Index) (s t : State), exec (.readU64 tableBase index) s = .next t →
    (∀ a : Nat, Memory.readByte t.mem a = Memory.readByte s.mem a) ∧
    t.walker.idx = s.walker.idx ∧
    (∀ l : Level, l ≠ s.walker.level → t.walker.trace.get l = s.walker.trace.get l) ∧
    t.ports = { s.ports with readerOut := t.ports.readerOut } ∧
    (s.walker.fsm ≠ .wait → t.walker = s.walker)

/-! ### Encodings -/

/-- R80 to R92, R97: for every well-formed instruction, with every operand at every value, decoding its word on its port gives it
back. -/
def Obligations.DecodeOfEncode : Prop :=
  ∀ i : Instr, i.wf = true → decode (portOf i) (encode i) = .ok i

/-- The other direction: bytes that decode on a port are the encoding of a well-formed instruction of that port and of no other. -/
def Obligations.EncodeOfDecode : Prop :=
  ∀ (p : Port) (bytes : List Byte) (i : Instr), decode p bytes = .ok i →
    portOf i = p ∧ encode i = bytes ∧ i.wf = true

/-- R89, R144, R196: no operation raises anything. An instruction completes in every state exactly if it is a word of its row and, where
it is a call of `decode_permissions` (R144) or of one of its rows alone, of Page kind; a term that is no word of its row (no word
decodes to it) is refused as such (log entry 17), and any other call off Page kind as that. That the single permission rows stop off
Page kind is the model's choice (log entry 16). -/
def Obligations.OnlyIllFormedTermsStop : Prop :=
  ∀ (i : Instr) (s : State),
    ((∃ t, exec i s = .next t) ↔
      i.wf = true ∧ ∀ entry, permissionEntry i = some entry → entry.level = 3 ∧ entry.word.getLsbD 0 = true) ∧
    (i.wf = false → ∃ name, exec i s = .refused (.rowMismatch name)) ∧
    (i.wf = true → (∀ t, exec i s ≠ .next t) → exec i s = .refused .notPageKind)

/-- Words written out from the spec's encodings (R81 to R83, R92, R97) decode to the instructions they stand for. That the bytes come with
the least significant first, and a RDREQ record in 10 of them, is the model's choice (log entry 3), and so are the ports (log
entry 1). -/
def Obligations.SpecWordsDecode : Prop :=
  decode .decomposer [0x00#8, 0x10#8, 0x40#8, 0x00#8, 0x00#8, 0x00#8, 0x00#8, 0x00#8] =
    .ok (.decompose 0x0000000000401000#64) ∧
  decode (.classifier 0) [0x03#8, 0x20#8, 0x00#8, 0x00#8, 0x00#8, 0x00#8, 0x00#8, 0x00#8] =
    .ok (.classifyTable 0x2003#64 0) ∧
  decode (.classifier 3) [0xC3#8, 0x00#8, 0x05#8, 0x00#8, 0x00#8, 0x00#8, 0x20#8, 0x00#8] =
    .ok (.classifyPage 0x00200000000500C3#64 3) ∧
  decode (.accessLines 3) [0xC3#8, 0x00#8, 0x05#8, 0x00#8, 0x00#8, 0x00#8, 0x20#8, 0x00#8] =
    .ok (.permAp3 ⟨0x00200000000500C3#64, 3⟩) ∧
  decode .request [0x00#8, 0x10#8, 0x40#8, 0x00#8, 0x00#8, 0x00#8, 0x00#8, 0x00#8,
      0x00#8, 0x10#8, 0x00#8, 0x00#8, 0x00#8, 0x00#8, 0x00#8, 0x00#8] =
    .ok (.walk 0x1000#64 0x401000#64) ∧
  decode .reader [0x02#8, 0x00#8, 0x60#8, 0x00#8, 0x00#8, 0x00#8, 0x00#8, 0x00#8, 0x00#8, 0x00#8] =
    .ok (.readU64 0x3000#64 2#9)

/-- When the word that a turn presents decodes to an instruction, the step is that instruction's meaning on the state with the turn
used up and, where the word was the requester's oldest request, that request taken off; a word that does not decode is refused by
name. The turns and the requester's list of requests are the model's form (log entries 4 and 18). -/
def Obligations.StepRunsTheDecodedInstruction : Prop :=
  ∀ (s : State) (port : Port) (word : List Byte), s.fetch = some (port, word) →
    (∀ i, decode port word = .ok i → step s = exec i s.fetched) ∧
    (∀ e, decode port word = .error e → step s = .refused (.undecodable e)) ∧
    s.fetched = { s with
      schedule := s.schedule.tail
      ports := { s.ports with
        pending := if s.turn = .proceed ∧ s.walker.fsm = .idle then s.ports.pending.tail else s.ports.pending } }

/-- What is fetched: the word a turn presents; else, on `proceed`, the oldest request in IDLE and, with a reader attached, the RDREQ
record of the outstanding read in WAIT. The turns, the order of the requests and the attached reader are the model's form (log
entries 4, 18 and 13). -/
def Obligations.FetchPresentsThePortsWord : Prop :=
  ∀ s : State,
    (∀ port word, s.turn = .operate port word → s.fetch = some (port, word)) ∧
    (∀ tableBase va rest, s.turn = .proceed → s.walker.fsm = .idle →
      s.ports.pending = (tableBase ++ va) :: rest →
      ∃ word, s.fetch = some (.request, word) ∧ decode .request word = .ok (.walk tableBase va)) ∧
    (s.turn = .proceed → s.walker.fsm = .wait → s.params.readerAttached = true →
      ∃ word, s.fetch = some (.reader, word) ∧
        decode .reader word = .ok (.readU64 s.walker.curTable (s.walker.idx.get s.walker.level)))

/-- R93, R94, R95, R97, R21: the numeric codes and the flag of RDRESP, and PERMS packs the six flags, each in its own bit, without loss. -/
def Obligations.RecordCodes : Prop :=
  (∀ p : Perms, Perms.unpack p.pack = p) ∧ (∀ b : BitVec 6, (Perms.unpack b).pack = b) ∧
  (∀ p : Perms, p.pack.getLsbD 0 = p.privRead ∧ p.pack.getLsbD 1 = p.privWrite ∧ p.pack.getLsbD 2 = p.privExec ∧
    p.pack.getLsbD 3 = p.userRead ∧ p.pack.getLsbD 4 = p.userWrite ∧ p.pack.getLsbD 5 = p.userExec) ∧
  (EntryKind.invalid.code = 0#2 ∧ EntryKind.block.code = 1#2 ∧ EntryKind.table.code = 2#2 ∧ EntryKind.page.code = 3#2) ∧
  (Fsm.idle.code = 0#2 ∧ Fsm.issue.code = 1#2 ∧ Fsm.wait.code = 2#2 ∧ Fsm.done.code = 3#2) ∧
  (∀ v, (ReadResult.ok v).okFlag = 1#1) ∧ (∀ e, (ReadResult.err e).okFlag = 0#1) ∧
  (∀ r : Response,
    (r.flat.status = 0#3 ↔ ∃ a p, r.result = .success a p) ∧
    (r.flat.status = 1#3 ↔ ∃ l, r.result = .failure l) ∧
    (r.flat.status = 2#3 ↔ ∃ l, r.result = .stopped l) ∧
    (r.flat.status = 3#3 ↔ ∃ l tb ix e, r.result = .readFailure l tb ix e) ∧
    (r.flat.status = 4#3 ↔ r.result = .malformedArgument))

/-- R7: the open parameters. The `table_base` operand is the low `ADDR_BITS` bits of the request's field; and right after reset the
parameters are the defaults: every base is taken as given, no request is malformed, `ReadError` has one element, slots are at
`tb + 8*ix` modulo 2^64, bytes are little-endian, and there is one walker. That `ADDR_BITS` is from 48 to 64 is the model's choice (log
entry 29). -/
def Obligations.OpenParametersAndTheirDefaults : Prop :=
  (∀ (p : Params) (tableBase : Word64) (i : Nat),
    48 ≤ p.addrBits ∧ p.addrBits ≤ 64 ∧
    (p.operandBase tableBase).getLsbD i = (decide (i < p.addrBits) && tableBase.getLsbD i)) ∧
  State.reset.params.addrBits = 64 ∧
  (∀ tableBase : Word64, State.reset.params.operandBase tableBase = tableBase) ∧
  (∀ tableBase va : Word64, isMalformed State.reset.params tableBase va = false) ∧
  (∀ e e' : ReadError, State.reset.params.errorType.element e = State.reset.params.errorType.element e') ∧
  (∀ (tableBase : Word64) (index : Index),
    State.reset.params.slotAddr tableBase index = tableBase + 8#64 * index.setWidth 64) ∧
  State.reset.params.byteOrder = .little ∧
  State.reset.others = []
end

