-- ==== Sys2Proof/Laws/Fields.lean ====
section
/-! SUPPORT. The fields of addresses and descriptors bit by bit, the spec of `classify`, and the flags of `decode_permissions` as bits. -/

namespace Sys2Proof.Machine

/-! ### Format VA: shift and mask is a slice of bits -/

theorem vaL0_eq_slice (va : Word64) : vaL0 va = va.extractLsb' 39 9 := by
  ext i hi
  have : i = 0 ∨ i = 1 ∨ i = 2 ∨ i = 3 ∨ i = 4 ∨ i = 5 ∨ i = 6 ∨ i = 7 ∨ i = 8 := by omega
  rcases this with rfl | rfl | rfl | rfl | rfl | rfl | rfl | rfl | rfl <;> simp [vaL0]

theorem vaL1_eq_slice (va : Word64) : vaL1 va = va.extractLsb' 30 9 := by
  ext i hi
  have : i = 0 ∨ i = 1 ∨ i = 2 ∨ i = 3 ∨ i = 4 ∨ i = 5 ∨ i = 6 ∨ i = 7 ∨ i = 8 := by omega
  rcases this with rfl | rfl | rfl | rfl | rfl | rfl | rfl | rfl | rfl <;> simp [vaL1]

theorem vaL2_eq_slice (va : Word64) : vaL2 va = va.extractLsb' 21 9 := by
  ext i hi
  have : i = 0 ∨ i = 1 ∨ i = 2 ∨ i = 3 ∨ i = 4 ∨ i = 5 ∨ i = 6 ∨ i = 7 ∨ i = 8 := by omega
  rcases this with rfl | rfl | rfl | rfl | rfl | rfl | rfl | rfl | rfl <;> simp [vaL2]

theorem vaL3_eq_slice (va : Word64) : vaL3 va = va.extractLsb' 12 9 := by
  ext i hi
  have : i = 0 ∨ i = 1 ∨ i = 2 ∨ i = 3 ∨ i = 4 ∨ i = 5 ∨ i = 6 ∨ i = 7 ∨ i = 8 := by omega
  rcases this with rfl | rfl | rfl | rfl | rfl | rfl | rfl | rfl | rfl <;> simp [vaL3]

theorem vaOffset_eq_slice (va : Word64) : vaOffset va = va.extractLsb' 0 12 := by
  ext i hi
  have : i = 0 ∨ i = 1 ∨ i = 2 ∨ i = 3 ∨ i = 4 ∨ i = 5 ∨ i = 6 ∨ i = 7 ∨ i = 8 ∨ i = 9 ∨ i = 10 ∨ i = 11 := by omega
  rcases this with rfl | rfl | rfl | rfl | rfl | rfl | rfl | rfl | rfl | rfl | rfl | rfl <;> simp [vaOffset]

/-- `OA_MASK` bit by bit: bits 47:12 (R6). -/
theorem oaMask_bit (i : Nat) (hi : i < 64) : Config.oaMask.getLsbD i = decide (12 ≤ i ∧ i < 48) := by
  have h : ∀ j : Fin 64, Config.oaMask.getLsbD j.val = decide (12 ≤ j.val ∧ j.val < 48) := by decide
  exact h ⟨i, hi⟩

/-- An output address bit by bit (R85). -/
theorem outputAddress_bit (entry : Word64) (i : Nat) :
    (outputAddress entry).getLsbD i = (entry.getLsbD i && decide (12 ≤ i ∧ i < 48)) := by
  by_cases hi : i < 64
  · simp [outputAddress, oaMask_bit i hi]
  · have : 64 ≤ i := by omega
    simp [outputAddress, BitVec.getLsbD_of_ge _ _ this]

/-- Masking an output address again changes nothing. -/
@[simp] theorem outputAddress_outputAddress (entry : Word64) :
    outputAddress (outputAddress entry) = outputAddress entry := by
  simp [outputAddress, BitVec.and_assoc]

/-- An output address has no bit outside the mask (R25). -/
theorem outputAddress_outside (entry : Word64) : outputAddress entry &&& ~~~Config.oaMask = 0#64 := by
  apply BitVec.eq_of_getLsbD_eq
  intro i hi
  rw [BitVec.getLsbD_and, outputAddress_bit, BitVec.getLsbD_not]
  simp only [hi, decide_true, Bool.true_and, oaMask_bit i hi, BitVec.getLsbD_zero]
  cases entry.getLsbD i <;> cases decide (12 ≤ i ∧ i < 48) <;> rfl

/-! ### The AP field -/

theorem entryAp_eq_slice (entry : Word64) : entryAp entry = entry.extractLsb' 6 2 := by
  ext i hi
  have : i = 0 ∨ i = 1 := by omega
  rcases this with rfl | rfl <;> simp [entryAp]

/-- The value of the AP field from its two bits (R86). -/
theorem entryAp_eq_bits (entry : Word64) :
    entryAp entry = BitVec.ofBool (entry.getLsbD 7) ++ BitVec.ofBool (entry.getLsbD 6) := by
  have h : ∀ a b : Bool, (BitVec.ofBool a ++ BitVec.ofBool b).getLsbD 0 = b ∧
      (BitVec.ofBool a ++ BitVec.ofBool b).getLsbD 1 = a := by decide
  rw [entryAp_eq_slice]
  apply BitVec.eq_of_getLsbD_eq
  intro i hi
  have : i = 0 ∨ i = 1 := by omega
  rcases this with rfl | rfl
  · rw [(h _ _).1]; simp
  · rw [(h _ _).2]; simp

/-- The flags of `decode_permissions` as bits (R142, R136, R137). -/
theorem decodePermissions_bits (entry : Word64) :
    decodePermissions entry =
      { privRead := true
        privWrite := !entry.getLsbD 7
        privExec := !entry.getLsbD 53
        userRead := entry.getLsbD 6
        userWrite := entry.getLsbD 6 && !entry.getLsbD 7
        userExec := !entry.getLsbD 54 } := by
  simp only [decodePermissions, privWriteFlag, userReadFlag, userWriteFlag, privExecFlag, userExecFlag, entryPxn, entryUxn,
    entryAp_eq_bits]
  cases entry.getLsbD 7 <;> cases entry.getLsbD 6 <;> rfl

/-! ### `classify`, one lemma per kind -/

theorem classify_invalid {entry : Word64} {level : Level} (h : entryValid entry = false) :
    classify entry level = .invalid := by
  simp [classify, h]

theorem classify_block {entry : Word64} {level : Level} (hv : entryValid entry = true) (ht : entryType entry = false)
    (hl : level < 3) : classify entry level = .block := by
  simp [classify, hv, ht, hl]

theorem classify_table {entry : Word64} {level : Level} (hv : entryValid entry = true) (ht : entryType entry = true)
    (hl : level < 3) : classify entry level = .table (outputAddress entry) := by
  simp [classify, hv, ht, hl]

theorem classify_page {entry : Word64} (hv : entryValid entry = true) :
    classify entry 3 = .page (outputAddress entry) := by
  simp [classify, hv]

/-- A level is below 3 or is 3. -/
theorem level_lt_or_eq (level : Level) : level < 3 ∨ level = 3 := by
  rcases level with ⟨l, hl⟩
  simp only [Fin.lt_def, Fin.ext_iff]
  have : (3 : Level).val = 3 := rfl
  omega

/-- Everything `classify` can answer (R121 to R124). -/
theorem classify_cases (entry : Word64) (level : Level) :
    (entryValid entry = false ∧ classify entry level = .invalid) ∨
    (level < 3 ∧ entryValid entry = true ∧ entryType entry = false ∧ classify entry level = .block) ∨
    (level < 3 ∧ entryValid entry = true ∧ entryType entry = true ∧
      classify entry level = .table (outputAddress entry)) ∨
    (level = 3 ∧ entryValid entry = true ∧ classify entry level = .page (outputAddress entry)) := by
  cases hv : entryValid entry with
  | false => exact .inl ⟨rfl, classify_invalid hv⟩
  | true =>
    rcases level_lt_or_eq level with hl | hl
    · cases ht : entryType entry with
      | false => exact .inr (.inl ⟨hl, rfl, rfl, classify_block hv ht hl⟩)
      | true => exact .inr (.inr (.inl ⟨hl, rfl, rfl, classify_table hv ht hl⟩))
    · subst hl
      exact .inr (.inr (.inr ⟨rfl, rfl, classify_page hv⟩))

end Sys2Proof.Machine
end

