-- ==== Sys2Proof/Laws/Words.lean ====
section
/-! SUPPORT. Bytes and words: what `bytesLE` and `ofBytesLE` do to each other. -/

namespace Sys2Proof.Machine

@[simp] theorem bytesLE_length (n w : Nat) : (bytesLE n w).length = n := by
  induction n generalizing w with
  | zero => rfl
  | succ n ih => simp [bytesLE, ih]

/-- The bytes of a number make the number again, modulo what they can hold. -/
theorem ofBytesLE_bytesLE (n w : Nat) : ofBytesLE (bytesLE n w) = w % 256 ^ n := by
  induction n generalizing w with
  | zero => simp [bytesLE, ofBytesLE, Nat.mod_one]
  | succ n ih =>
    have h : w % (256 * 256 ^ n) = w % 256 + 256 * (w / 256 % 256 ^ n) := Nat.mod_mul
    simp only [bytesLE, ofBytesLE, BitVec.toNat_ofNat, ih, Nat.pow_succ', h]

/-- The bytes of a number that fits make exactly that number. -/
theorem ofBytesLE_bytesLE_of_lt {n w : Nat} (h : w < 256 ^ n) : ofBytesLE (bytesLE n w) = w := by
  rw [ofBytesLE_bytesLE, Nat.mod_eq_of_lt h]

/-- What bytes make is below 256 to the power of their number. -/
theorem ofBytesLE_lt (bs : List Byte) : ofBytesLE bs < 256 ^ bs.length := by
  induction bs with
  | nil => simp [ofBytesLE]
  | cons b bs ih =>
    have hb := b.isLt
    simp only [ofBytesLE, List.length_cons, Nat.pow_succ]
    omega

/-- Bytes are the bytes of the number they make. -/
theorem bytesLE_ofBytesLE (bs : List Byte) : bytesLE bs.length (ofBytesLE bs) = bs := by
  induction bs with
  | nil => rfl
  | cons b bs ih =>
    have hb := b.isLt
    have hdiv : (b.toNat + 256 * ofBytesLE bs) / 256 = ofBytesLE bs := by omega
    simp only [ofBytesLE, List.length_cons, bytesLE, hdiv, ih]
    congr 1
    apply BitVec.eq_of_toNat_eq
    simp only [BitVec.toNat_ofNat]
    omega

/-- The fields of a packed REQ word (R92). -/
@[simp] theorem reqTableBase_packReq (tb va : Word64) : reqTableBase (packReq tb va) = tb := by
  unfold reqTableBase packReq
  exact BitVec.extractLsb'_append_eq_left

@[simp] theorem reqVa_packReq (tb va : Word64) : reqVa (packReq tb va) = va := by
  unfold reqVa packReq
  exact BitVec.extractLsb'_append_eq_right

/-- The fields of a packed RDREQ word (R97). -/
@[simp] theorem rdTableBase_packRdReq (tb : Word64) (ix : Index) : rdTableBase (packRdReq tb ix) = tb := by
  unfold rdTableBase packRdReq
  exact BitVec.extractLsb'_append_eq_left

@[simp] theorem rdIndex_packRdReq (tb : Word64) (ix : Index) : rdIndex (packRdReq tb ix) = ix := by
  unfold rdIndex packRdReq
  exact BitVec.extractLsb'_append_eq_right

/-- A word of the port's length decodes as its number does. -/
theorem decode_bytesLE (p : Port) (w : Nat) (h : w < 256 ^ portBytes p) :
    decode p (bytesLE (portBytes p) w) = decodeWord p w := by
  simp [decode, ofBytesLE_bytesLE_of_lt h]

/-- Bytes of another length are refused by name. -/
theorem decode_wrongLength (p : Port) (bs : List Byte) (h : bs.length ≠ portBytes p) :
    decode p bs = .error (.wrongLength p bs.length) := by
  simp [decode, h]

end Sys2Proof.Machine
end

