-- ==== Sys2Proof/Laws/Memory.lean ====
section
/-! SUPPORT. Memory: every operation keeps the canonical form, and what a byte reads as after each. -/

namespace Sys2Proof.Machine

@[simp] theorem above_none (a : Nat) : Memory.above none a = true := rfl

@[simp] theorem above_some (b a : Nat) : Memory.above (some b) a = decide (b < a) := rfl

/-- What the canonical form says of a first cell. -/
theorem risesFrom_cons (bound : Option Nat) (a : Nat) (v : Byte) (rest : Memory) :
    Memory.risesFrom bound ((a, v) :: rest) = true ↔
      Memory.above bound a = true ∧ a < 2 ^ 64 ∧ Memory.risesFrom (some a) rest = true := by
  simp [Memory.risesFrom, and_assoc]

/-- A weaker bound is met too. -/
theorem risesFrom_weaken {bound bound' : Option Nat} (m : Memory)
    (h : ∀ a, Memory.above bound a = true → Memory.above bound' a = true)
    (hm : Memory.risesFrom bound m = true) : Memory.risesFrom bound' m = true := by
  cases m with
  | nil => rfl
  | cons cell rest =>
    obtain ⟨h1, h2⟩ := (risesFrom_cons _ _ _ _).1 hm
    exact (risesFrom_cons _ _ _ _).2 ⟨h _ h1, h2⟩

/-- Nothing at or below the bound is listed. -/
theorem readByte_of_risesFrom {b a : Nat} (m : Memory) (hm : Memory.risesFrom (some b) m = true) (h : a ≤ b) :
    Memory.readByte m a = none := by
  induction m generalizing b with
  | nil => rfl
  | cons cell rest ih =>
    obtain ⟨c, v⟩ := cell
    obtain ⟨h1, -, h3⟩ := (risesFrom_cons _ _ _ _).1 hm
    simp only [above_some, decide_eq_true_eq] at h1
    have hne : c ≠ a := by omega
    simp only [Memory.readByte, hne, if_false]
    exact ih h3 (by omega)

theorem risesFrom_writeByte (bound : Option Nat) (m : Memory) (a : Nat) (v : Byte)
    (hm : Memory.risesFrom bound m = true) (ha : a < 2 ^ 64) (hb : Memory.above bound a = true) :
    Memory.risesFrom bound (Memory.writeByte m a v) = true := by
  induction m generalizing bound with
  | nil => exact (risesFrom_cons _ _ _ _).2 ⟨hb, ha, rfl⟩
  | cons cell rest ih =>
    obtain ⟨c, x⟩ := cell
    obtain ⟨h1, h2, h3⟩ := (risesFrom_cons _ _ _ _).1 hm
    unfold Memory.writeByte
    split
    · exact (risesFrom_cons _ _ _ _).2 ⟨hb, ha, (risesFrom_cons _ _ _ _).2 ⟨by simpa, h2, h3⟩⟩
    · split
      · subst_vars
        exact (risesFrom_cons _ _ _ _).2 ⟨hb, ha, h3⟩
      · exact (risesFrom_cons _ _ _ _).2 ⟨h1, h2, ih (some c) h3 (by simp; omega)⟩

theorem risesFrom_eraseByte (bound : Option Nat) (m : Memory) (a : Nat)
    (hm : Memory.risesFrom bound m = true) : Memory.risesFrom bound (Memory.eraseByte m a) = true := by
  induction m generalizing bound with
  | nil => exact hm
  | cons cell rest ih =>
    obtain ⟨c, x⟩ := cell
    obtain ⟨h1, h2, h3⟩ := (risesFrom_cons _ _ _ _).1 hm
    unfold Memory.eraseByte
    split
    · refine risesFrom_weaken rest (fun d hd => ?_) h3
      cases bound with
      | none => rfl
      | some b =>
        simp only [above_some, decide_eq_true_eq] at h1 hd ⊢
        omega
    · exact (risesFrom_cons _ _ _ _).2 ⟨h1, h2, ih (some c) h3⟩

/-- Writing a byte keeps the canonical form. -/
theorem wf_writeByte (m : Memory) (a : Nat) (v : Byte) (hm : Memory.wf m = true) (ha : a < 2 ^ 64) :
    Memory.wf (Memory.writeByte m a v) = true :=
  risesFrom_writeByte none m a v hm ha rfl

/-- Erasing a byte keeps the canonical form. -/
theorem wf_eraseByte (m : Memory) (a : Nat) (hm : Memory.wf m = true) :
    Memory.wf (Memory.eraseByte m a) = true :=
  risesFrom_eraseByte none m a hm

/-- Writing bytes keeps the canonical form. -/
theorem wf_writeBytes (m : Memory) (addr : Word64) (bs : List Byte) (hm : Memory.wf m = true) :
    Memory.wf (Memory.writeBytes m addr bs) = true := by
  induction bs generalizing m addr with
  | nil => exact hm
  | cons b bs ih => exact ih _ _ (wf_writeByte m _ b hm addr.isLt)

/-- Erasing bytes keeps the canonical form. -/
theorem wf_eraseBytes (m : Memory) (addr : Word64) (n : Nat) (hm : Memory.wf m = true) :
    Memory.wf (Memory.eraseBytes m addr n) = true := by
  induction n generalizing m addr with
  | zero => exact hm
  | succ n ih => exact ih _ _ (wf_eraseByte m _ hm)

/-- The memory after reset is in canonical form. -/
theorem wf_reset : Memory.wf State.reset.mem = true := rfl

/-- A byte written reads as written, every other byte as before. -/
theorem readByte_writeByte (m : Memory) (a b : Nat) (v : Byte) :
    Memory.readByte (Memory.writeByte m a v) b = if b = a then some v else Memory.readByte m b := by
  induction m with
  | nil => simp [Memory.writeByte, Memory.readByte, eq_comm]
  | cons cell rest ih =>
    obtain ⟨c, x⟩ := cell
    unfold Memory.writeByte
    split
    · simp only [Memory.readByte, eq_comm]
    · split
      · subst_vars
        simp only [Memory.readByte, eq_comm (a := b)]
        split <;> simp_all
      · simp only [Memory.readByte, ih]
        split
        · have : b ≠ a := by omega
          simp [this]
        · rfl

theorem readByte_eraseByte_from (bound : Option Nat) (m : Memory) (a b : Nat)
    (hm : Memory.risesFrom bound m = true) :
    Memory.readByte (Memory.eraseByte m a) b = if b = a then none else Memory.readByte m b := by
  induction m generalizing bound with
  | nil => simp [Memory.eraseByte, Memory.readByte]
  | cons cell rest ih =>
    obtain ⟨c, x⟩ := cell
    obtain ⟨-, -, h3⟩ := (risesFrom_cons _ _ _ _).1 hm
    unfold Memory.eraseByte
    split
    · subst_vars
      by_cases h : b = c
      · subst h
        simp [readByte_of_risesFrom rest h3 (Nat.le_refl b)]
      · have : c ≠ b := fun e => h e.symm
        simp [Memory.readByte, h, this]
    · simp only [Memory.readByte, ih (some c) h3]
      by_cases h : c = b
      · have : b ≠ a := by omega
        simp [h, this]
      · simp [h]

/-- A byte erased reads as nothing, every other byte as before. -/
theorem readByte_eraseByte (m : Memory) (a b : Nat) (hm : Memory.wf m = true) :
    Memory.readByte (Memory.eraseByte m a) b = if b = a then none else Memory.readByte m b :=
  readByte_eraseByte_from none m a b hm

/-- Reading one byte more. -/
theorem readBytes_succ (m : Memory) (n : Nat) (addr : Word64) :
    Memory.readBytes m (n + 1) addr =
      match Memory.readByte m addr.toNat, Memory.readBytes m n (addr + 1) with
      | some b, some bs => some (b :: bs)
      | _, _ => none := rfl

/-- A slot's bytes have the slot's length. -/
theorem readBytes_length {m : Memory} {n : Nat} {addr : Word64} {bs : List Byte}
    (h : Memory.readBytes m n addr = some bs) : bs.length = n := by
  induction n generalizing addr bs with
  | zero => simp only [Memory.readBytes, Option.some.injEq] at h; subst h; rfl
  | succ n ih =>
    rw [readBytes_succ] at h
    split at h
    · rename_i hbs
      simp only [Option.some.injEq] at h
      subst h
      simp [ih hbs]
    · cases h

/-- One unlisted byte among them, and the bytes do not read (R52). -/
theorem readBytes_none (m : Memory) (n : Nat) (a : Word64) (k : Nat) (hk : k < n)
    (h : Memory.readByte m ((a.toNat + k) % 2 ^ 64) = none) : Memory.readBytes m n a = none := by
  induction n generalizing a k with
  | zero => omega
  | succ n ih =>
    rw [readBytes_succ]
    cases k with
    | zero =>
      have : a.toNat % 2 ^ 64 = a.toNat := Nat.mod_eq_of_lt a.isLt
      rw [Nat.add_zero, this] at h
      rw [h]
    | succ k =>
      rw [ih (a + 1) k (by omega)]
      · split <;> simp_all
      · rw [← h, BitVec.toNat_add]
        congr 1
        simp
        omega

/-- All listed, and the bytes read in the order of their addresses. -/
theorem readBytes_some (m : Memory) (n : Nat) (a : Word64) (f : Nat → Byte)
    (h : ∀ k, k < n → Memory.readByte m ((a.toNat + k) % 2 ^ 64) = some (f k)) :
    Memory.readBytes m n a = some ((List.range n).map f) := by
  induction n generalizing a f with
  | zero => rfl
  | succ n ih =>
    rw [readBytes_succ]
    have h0 := h 0 (by omega)
    have : a.toNat % 2 ^ 64 = a.toNat := Nat.mod_eq_of_lt a.isLt
    rw [Nat.add_zero, this] at h0
    rw [h0, ih (a + 1) (fun k => f (k + 1))]
    · simp [List.range_succ_eq_map, List.map_map, Function.comp_def]
    · intro k hk
      rw [← h (k + 1) (by omega), BitVec.toNat_add]
      congr 1
      simp
      omega

end Sys2Proof.Machine
end

