-- ==== Sys2Proof/Laws/Params.lean ====
section
/-! SUPPORT. What the open parameters do, in general and at their defaults, and everything presenting single output lines can do. -/

namespace Sys2Proof

/-- The `table_base` operand bit by bit (R7). -/
theorem operandBase_bit (p : Params) (tb : Word64) (i : Nat) :
    (p.operandBase tb).getLsbD i = (decide (i < p.addrBits) && tb.getLsbD i) := by
  by_cases h : i < 64
  · simp [Params.operandBase, h]
  · have : tb.getLsbD i = false := BitVec.getLsbD_of_ge tb i (by omega)
    simp [Params.operandBase, this]

/-- At full width every base is taken as given (R25, D2). -/
theorem operandBase_full (p : Params) (tb : Word64) (h : p.addrBits = 64) : p.operandBase tb = tb := by
  apply BitVec.eq_of_getLsbD_eq
  intro i hi
  rw [operandBase_bit, h]
  simp only [hi, decide_true, Bool.true_and]

/-- A type of one element has one (R7's default). -/
theorem element_single (e : ReadError) : (ErrorType.finite 0).element e = ⟨0⟩ := by
  simp [ErrorType.element, Nat.mod_one]

/-- Naming an element twice changes nothing. -/
@[simp] theorem element_element (ty : ErrorType) (e : ReadError) : ty.element (ty.element e) = ty.element e := by
  cases ty <;> simp [ErrorType.element]

/-- With no other address given, the slot is at `tb + 8 * ix` (R51). -/
theorem slotSum_array (p : Params) (tb : Word64) (ix : Index) (h : p.overrideOf tb ix = none) :
    p.slotSum tb ix = tb.toNat + 8 * ix.toNat := by
  simp [Params.slotSum, h]

/-- With another address given, the slot is there (R7). -/
theorem slotAddr_override (p : Params) (tb : Word64) (ix : Index) (a : Word64) (h : p.overrideOf tb ix = some a) :
    p.slotAddr tb ix = a := by
  simp [Params.slotAddr, Params.slotSum, h]

/-- The byte address of a slot as a number. -/
theorem slotAddr_toNat (p : Params) (tb : Word64) (ix : Index) :
    (p.slotAddr tb ix).toNat = p.slotSum tb ix % 2 ^ 64 := by
  simp [Params.slotAddr]

namespace Machine

@[simp] theorem reported_ok (v : Word64) (ty : ErrorType) : (ReadResult.ok v).reported ty = .ok v := rfl

@[simp] theorem reported_err (e : ReadError) (ty : ErrorType) : (ReadResult.err e).reported ty = .err (ty.element e) := rfl

/-- Lines of a Page-kind entry are presented (R144). -/
theorem presentLines_page {entry : AssertedEntry} {l : PermLines} {s : State} (h : isPageEntry entry.word entry.level = true) :
    presentLines entry l s = .next (s.driveLines l) := by
  simp [presentLines, h]

/-- Lines of any other word are refused by name (R144). -/
theorem presentLines_refused {entry : AssertedEntry} {l : PermLines} {s : State} (h : isPageEntry entry.word entry.level = false) :
    presentLines entry l s = .refused .notPageKind := by
  simp [presentLines, h]

/-- A next state is the state with the lines presented. -/
theorem presentLines_next {entry : AssertedEntry} {l : PermLines} {s t : State}
    (h : presentLines entry l s = .next t) : t = s.driveLines l := by
  unfold presentLines at h
  split at h <;> cases h
  rfl

/-- No fault. -/
theorem presentLines_no_fault (entry : AssertedEntry) (l : PermLines) (s : State) (f : Fault) :
    presentLines entry l s ≠ .fault f := by
  unfold presentLines
  split <;> simp

end Machine
end Sys2Proof
end

