-- ==== Sys2Proof/Laws/PerInstr.lean ====
section
/-! SUPPORT. Statements about every instruction as syntax, one lemma per constructor. -/

namespace Sys2Proof.Laws.FixedLength

open Sys2Proof Sys2Proof.Machine

/-- Each format has one fixed length (R80): an instruction's encoding has as many bytes as its port's words, and its word fits in
them. -/
def Statement (i : Instr) : Prop :=
  (encode i).length = portBytes (portOf i) ∧ encodeWord i < 256 ^ portBytes (portOf i)

theorem decompose (va : Word64) : Statement (.decompose va) :=
  ⟨bytesLE_length _ _, va.isLt⟩

theorem classifyInvalid (entry : Word64) (level : Level) : Statement (.classifyInvalid entry level) :=
  ⟨bytesLE_length _ _, entry.isLt⟩

theorem classifyBlock (entry : Word64) (level : Level) : Statement (.classifyBlock entry level) :=
  ⟨bytesLE_length _ _, entry.isLt⟩

theorem classifyTable (entry : Word64) (level : Level) : Statement (.classifyTable entry level) :=
  ⟨bytesLE_length _ _, entry.isLt⟩

theorem classifyPage (entry : Word64) (level : Level) : Statement (.classifyPage entry level) :=
  ⟨bytesLE_length _ _, entry.isLt⟩

theorem decodePermissions (entry : Word64) (level : Level) : Statement (.decodePermissions entry level) :=
  ⟨bytesLE_length _ _, entry.isLt⟩

theorem permUxnClear (entry : AssertedEntry) : Statement (.permUxnClear entry) :=
  ⟨bytesLE_length _ _, entry.word.isLt⟩

theorem permPxnClear (entry : AssertedEntry) : Statement (.permPxnClear entry) :=
  ⟨bytesLE_length _ _, entry.word.isLt⟩

theorem permAp0 (entry : AssertedEntry) : Statement (.permAp0 entry) :=
  ⟨bytesLE_length _ _, entry.word.isLt⟩

theorem permAp1 (entry : AssertedEntry) : Statement (.permAp1 entry) :=
  ⟨bytesLE_length _ _, entry.word.isLt⟩

theorem permAp2 (entry : AssertedEntry) : Statement (.permAp2 entry) :=
  ⟨bytesLE_length _ _, entry.word.isLt⟩

theorem permAp3 (entry : AssertedEntry) : Statement (.permAp3 entry) :=
  ⟨bytesLE_length _ _, entry.word.isLt⟩

theorem walk (tableBase va : Word64) : Statement (.walk tableBase va) :=
  ⟨bytesLE_length _ _, (packReq tableBase va).isLt⟩

theorem readU64 (tableBase : Word64) (index : Index) : Statement (.readU64 tableBase index) :=
  ⟨bytesLE_length _ _, Nat.lt_trans (packRdReq tableBase index).isLt (by simp [portBytes, portOf])⟩

end Sys2Proof.Laws.FixedLength
end

