-- ==== Sys2Proof/Laws/State.lean ====
section
/-! SUPPORT. One lemma per field per named update of the state, each true by definition, so that no later proof unfolds a record
update. -/

namespace Sys2Proof.Machine

@[simp] theorem State.withWalker_walker (s : State) (w : Walker) :
    (s.withWalker w).walker = w := rfl

@[simp] theorem State.withWalker_ports (s : State) (w : Walker) :
    (s.withWalker w).ports = s.ports := rfl

@[simp] theorem State.withWalker_others (s : State) (w : Walker) :
    (s.withWalker w).others = s.others := rfl

@[simp] theorem State.withWalker_mem (s : State) (w : Walker) :
    (s.withWalker w).mem = s.mem := rfl

@[simp] theorem State.withWalker_params (s : State) (w : Walker) :
    (s.withWalker w).params = s.params := rfl

@[simp] theorem State.withWalker_schedule (s : State) (w : Walker) :
    (s.withWalker w).schedule = s.schedule := rfl

@[simp] theorem State.driveDecompose_walker (s : State) (d : VaFields) :
    (s.driveDecompose d).walker = s.walker := rfl

@[simp] theorem State.driveDecompose_ports (s : State) (d : VaFields) :
    (s.driveDecompose d).ports = { s.ports with decomposeOut := some d } := rfl

@[simp] theorem State.driveDecompose_others (s : State) (d : VaFields) :
    (s.driveDecompose d).others = s.others := rfl

@[simp] theorem State.driveDecompose_mem (s : State) (d : VaFields) :
    (s.driveDecompose d).mem = s.mem := rfl

@[simp] theorem State.driveDecompose_params (s : State) (d : VaFields) :
    (s.driveDecompose d).params = s.params := rfl

@[simp] theorem State.driveDecompose_schedule (s : State) (d : VaFields) :
    (s.driveDecompose d).schedule = s.schedule := rfl

@[simp] theorem State.driveClassify_walker (s : State) (c : Classified) :
    (s.driveClassify c).walker = s.walker := rfl

@[simp] theorem State.driveClassify_ports (s : State) (c : Classified) :
    (s.driveClassify c).ports = { s.ports with classifyOut := some c } := rfl

@[simp] theorem State.driveClassify_others (s : State) (c : Classified) :
    (s.driveClassify c).others = s.others := rfl

@[simp] theorem State.driveClassify_mem (s : State) (c : Classified) :
    (s.driveClassify c).mem = s.mem := rfl

@[simp] theorem State.driveClassify_params (s : State) (c : Classified) :
    (s.driveClassify c).params = s.params := rfl

@[simp] theorem State.driveClassify_schedule (s : State) (c : Classified) :
    (s.driveClassify c).schedule = s.schedule := rfl

@[simp] theorem State.drivePerms_walker (s : State) (p : Perms) :
    (s.drivePerms p).walker = s.walker := rfl

@[simp] theorem State.drivePerms_ports (s : State) (p : Perms) :
    (s.drivePerms p).ports = { s.ports with permsOut := some p } := rfl

@[simp] theorem State.drivePerms_others (s : State) (p : Perms) :
    (s.drivePerms p).others = s.others := rfl

@[simp] theorem State.drivePerms_mem (s : State) (p : Perms) :
    (s.drivePerms p).mem = s.mem := rfl

@[simp] theorem State.drivePerms_params (s : State) (p : Perms) :
    (s.drivePerms p).params = s.params := rfl

@[simp] theorem State.drivePerms_schedule (s : State) (p : Perms) :
    (s.drivePerms p).schedule = s.schedule := rfl

@[simp] theorem State.driveLines_walker (s : State) (l : PermLines) :
    (s.driveLines l).walker = s.walker := rfl

@[simp] theorem State.driveLines_ports (s : State) (l : PermLines) :
    (s.driveLines l).ports = { s.ports with permLines := l } := rfl

@[simp] theorem State.driveLines_others (s : State) (l : PermLines) :
    (s.driveLines l).others = s.others := rfl

@[simp] theorem State.driveLines_mem (s : State) (l : PermLines) :
    (s.driveLines l).mem = s.mem := rfl

@[simp] theorem State.driveLines_params (s : State) (l : PermLines) :
    (s.driveLines l).params = s.params := rfl

@[simp] theorem State.driveLines_schedule (s : State) (l : PermLines) :
    (s.driveLines l).schedule = s.schedule := rfl

@[simp] theorem State.driveReader_walker (s : State) (r : ReadResult) :
    (s.driveReader r).walker = s.walker := rfl

@[simp] theorem State.driveReader_ports (s : State) (r : ReadResult) :
    (s.driveReader r).ports = { s.ports with readerOut := some r } := rfl

@[simp] theorem State.driveReader_others (s : State) (r : ReadResult) :
    (s.driveReader r).others = s.others := rfl

@[simp] theorem State.driveReader_mem (s : State) (r : ReadResult) :
    (s.driveReader r).mem = s.mem := rfl

@[simp] theorem State.driveReader_params (s : State) (r : ReadResult) :
    (s.driveReader r).params = s.params := rfl

@[simp] theorem State.driveReader_schedule (s : State) (r : ReadResult) :
    (s.driveReader r).schedule = s.schedule := rfl

@[simp] theorem State.keepRequest_walker (s : State) (w : ReqWord) :
    (s.keepRequest w).walker = s.walker := rfl

@[simp] theorem State.keepRequest_ports (s : State) (w : ReqWord) :
    (s.keepRequest w).ports = { s.ports with pending := s.ports.pending ++ [w] } := rfl

@[simp] theorem State.keepRequest_others (s : State) (w : ReqWord) :
    (s.keepRequest w).others = s.others := rfl

@[simp] theorem State.keepRequest_mem (s : State) (w : ReqWord) :
    (s.keepRequest w).mem = s.mem := rfl

@[simp] theorem State.keepRequest_params (s : State) (w : ReqWord) :
    (s.keepRequest w).params = s.params := rfl

@[simp] theorem State.keepRequest_schedule (s : State) (w : ReqWord) :
    (s.keepRequest w).schedule = s.schedule := rfl

@[simp] theorem State.clearSent_walker (s : State) :
    (s.clearSent).walker = s.walker := rfl

@[simp] theorem State.clearSent_ports (s : State) :
    (s.clearSent).ports = { s.ports with sent := [] } := rfl

@[simp] theorem State.clearSent_others (s : State) :
    (s.clearSent).others = s.others := rfl

@[simp] theorem State.clearSent_mem (s : State) :
    (s.clearSent).mem = s.mem := rfl

@[simp] theorem State.clearSent_params (s : State) :
    (s.clearSent).params = s.params := rfl

@[simp] theorem State.clearSent_schedule (s : State) :
    (s.clearSent).schedule = s.schedule := rfl

@[simp] theorem State.sendRead_walker (s : State) (r : RdReq) :
    (s.sendRead r).walker = s.walker := rfl

@[simp] theorem State.sendRead_ports (s : State) (r : RdReq) :
    (s.sendRead r).ports = { s.ports with sent := s.ports.sent ++ [r] } := rfl

@[simp] theorem State.sendRead_others (s : State) (r : RdReq) :
    (s.sendRead r).others = s.others := rfl

@[simp] theorem State.sendRead_mem (s : State) (r : RdReq) :
    (s.sendRead r).mem = s.mem := rfl

@[simp] theorem State.sendRead_params (s : State) (r : RdReq) :
    (s.sendRead r).params = s.params := rfl

@[simp] theorem State.sendRead_schedule (s : State) (r : RdReq) :
    (s.sendRead r).schedule = s.schedule := rfl

@[simp] theorem State.handOver_walker (s : State) (r : Response) :
    (s.handOver r).walker = s.walker := rfl

@[simp] theorem State.handOver_ports (s : State) (r : Response) :
    (s.handOver r).ports = { s.ports with delivered := s.ports.delivered ++ [r] } := rfl

@[simp] theorem State.handOver_others (s : State) (r : Response) :
    (s.handOver r).others = s.others := rfl

@[simp] theorem State.handOver_mem (s : State) (r : Response) :
    (s.handOver r).mem = s.mem := rfl

@[simp] theorem State.handOver_params (s : State) (r : Response) :
    (s.handOver r).params = s.params := rfl

@[simp] theorem State.handOver_schedule (s : State) (r : Response) :
    (s.handOver r).schedule = s.schedule := rfl

@[simp] theorem State.withSchedule_walker (s : State) (turns : List Turn) :
    (s.withSchedule turns).walker = s.walker := rfl

@[simp] theorem State.withSchedule_ports (s : State) (turns : List Turn) :
    (s.withSchedule turns).ports = s.ports := rfl

@[simp] theorem State.withSchedule_others (s : State) (turns : List Turn) :
    (s.withSchedule turns).others = s.others := rfl

@[simp] theorem State.withSchedule_mem (s : State) (turns : List Turn) :
    (s.withSchedule turns).mem = s.mem := rfl

@[simp] theorem State.withSchedule_params (s : State) (turns : List Turn) :
    (s.withSchedule turns).params = s.params := rfl

@[simp] theorem State.withSchedule_schedule (s : State) (turns : List Turn) :
    (s.withSchedule turns).schedule = turns := rfl

@[simp] theorem State.agentWrite_walker (s : State) (addr : Word64) (bytes : List Byte) :
    (s.agentWrite addr bytes).walker = s.walker := rfl

@[simp] theorem State.agentWrite_ports (s : State) (addr : Word64) (bytes : List Byte) :
    (s.agentWrite addr bytes).ports = s.ports := rfl

@[simp] theorem State.agentWrite_others (s : State) (addr : Word64) (bytes : List Byte) :
    (s.agentWrite addr bytes).others = s.others := rfl

@[simp] theorem State.agentWrite_mem (s : State) (addr : Word64) (bytes : List Byte) :
    (s.agentWrite addr bytes).mem = Memory.writeBytes s.mem addr bytes := rfl

@[simp] theorem State.agentWrite_params (s : State) (addr : Word64) (bytes : List Byte) :
    (s.agentWrite addr bytes).params = s.params := rfl

@[simp] theorem State.agentWrite_schedule (s : State) (addr : Word64) (bytes : List Byte) :
    (s.agentWrite addr bytes).schedule = s.schedule := rfl

@[simp] theorem State.agentErase_walker (s : State) (addr : Word64) (count : Nat) :
    (s.agentErase addr count).walker = s.walker := rfl

@[simp] theorem State.agentErase_ports (s : State) (addr : Word64) (count : Nat) :
    (s.agentErase addr count).ports = s.ports := rfl

@[simp] theorem State.agentErase_others (s : State) (addr : Word64) (count : Nat) :
    (s.agentErase addr count).others = s.others := rfl

@[simp] theorem State.agentErase_mem (s : State) (addr : Word64) (count : Nat) :
    (s.agentErase addr count).mem = Memory.eraseBytes s.mem addr count := rfl

@[simp] theorem State.agentErase_params (s : State) (addr : Word64) (count : Nat) :
    (s.agentErase addr count).params = s.params := rfl

@[simp] theorem State.agentErase_schedule (s : State) (addr : Word64) (count : Nat) :
    (s.agentErase addr count).schedule = s.schedule := rfl

@[simp] theorem State.resetInstance_walker (s : State) :
    (s.resetInstance).walker = Walker.reset := rfl

@[simp] theorem State.resetInstance_ports (s : State) :
    (s.resetInstance).ports = s.ports.afterReset := rfl

@[simp] theorem State.resetInstance_others (s : State) :
    (s.resetInstance).others = s.others := rfl

@[simp] theorem State.resetInstance_mem (s : State) :
    (s.resetInstance).mem = s.mem := rfl

@[simp] theorem State.resetInstance_params (s : State) :
    (s.resetInstance).params = s.params := rfl

@[simp] theorem State.resetInstance_schedule (s : State) :
    (s.resetInstance).schedule = s.schedule := rfl

@[simp] theorem State.selectWalker_walker (s : State) (k : Nat) (t : Ttw) :
    (s.selectWalker k t).walker = t.walker := rfl

@[simp] theorem State.selectWalker_ports (s : State) (k : Nat) (t : Ttw) :
    (s.selectWalker k t).ports = t.ports := rfl

@[simp] theorem State.selectWalker_others (s : State) (k : Nat) (t : Ttw) :
    (s.selectWalker k t).others = s.others.set k { walker := s.walker, ports := s.ports } := rfl

@[simp] theorem State.selectWalker_mem (s : State) (k : Nat) (t : Ttw) :
    (s.selectWalker k t).mem = s.mem := rfl

@[simp] theorem State.selectWalker_params (s : State) (k : Nat) (t : Ttw) :
    (s.selectWalker k t).params = s.params := rfl

@[simp] theorem State.selectWalker_schedule (s : State) (k : Nat) (t : Ttw) :
    (s.selectWalker k t).schedule = s.schedule := rfl

@[simp] theorem State.afterTurn_walker (s : State) :
    s.afterTurn.walker = s.walker := rfl

@[simp] theorem State.afterTurn_ports (s : State) :
    s.afterTurn.ports = s.ports := rfl

@[simp] theorem State.afterTurn_others (s : State) :
    s.afterTurn.others = s.others := rfl

@[simp] theorem State.afterTurn_mem (s : State) :
    s.afterTurn.mem = s.mem := rfl

@[simp] theorem State.afterTurn_params (s : State) :
    s.afterTurn.params = s.params := rfl

@[simp] theorem State.afterTurn_schedule (s : State) :
    s.afterTurn.schedule = s.schedule.tail := rfl

@[simp] theorem State.dropRequest_walker (s : State) :
    s.dropRequest.walker = s.walker := rfl

@[simp] theorem State.dropRequest_ports (s : State) :
    s.dropRequest.ports = { s.ports with pending := s.ports.pending.tail } := rfl

@[simp] theorem State.dropRequest_others (s : State) :
    s.dropRequest.others = s.others := rfl

@[simp] theorem State.dropRequest_mem (s : State) :
    s.dropRequest.mem = s.mem := rfl

@[simp] theorem State.dropRequest_params (s : State) :
    s.dropRequest.params = s.params := rfl

@[simp] theorem State.dropRequest_schedule (s : State) :
    s.dropRequest.schedule = s.schedule := rfl

@[simp] theorem Walker.appendStep_fsm (w : Walker) (step : WalkStep) :
    (w.appendStep step).fsm = w.fsm := rfl

@[simp] theorem Walker.appendStep_level (w : Walker) (step : WalkStep) :
    (w.appendStep step).level = w.level := rfl

@[simp] theorem Walker.appendStep_idx (w : Walker) (step : WalkStep) :
    (w.appendStep step).idx = w.idx := rfl

@[simp] theorem Walker.appendStep_curTable (w : Walker) (step : WalkStep) :
    (w.appendStep step).curTable = w.curTable := rfl

@[simp] theorem Walker.appendStep_trace (w : Walker) (step : WalkStep) :
    (w.appendStep step).trace = w.trace.set w.level step := rfl

@[simp] theorem Walker.appendStep_traceLen (w : Walker) (step : WalkStep) :
    (w.appendStep step).traceLen = BitVec.ofNat 3 (w.level.val + 1) := rfl

@[simp] theorem Walker.appendStep_result (w : Walker) (step : WalkStep) :
    (w.appendStep step).result = w.result := rfl

@[simp] theorem Walker.endWalk_fsm (w : Walker) (outcome : WalkResult) :
    (w.endWalk outcome).fsm = .done := rfl

@[simp] theorem Walker.endWalk_level (w : Walker) (outcome : WalkResult) :
    (w.endWalk outcome).level = w.level := rfl

@[simp] theorem Walker.endWalk_idx (w : Walker) (outcome : WalkResult) :
    (w.endWalk outcome).idx = w.idx := rfl

@[simp] theorem Walker.endWalk_curTable (w : Walker) (outcome : WalkResult) :
    (w.endWalk outcome).curTable = w.curTable := rfl

@[simp] theorem Walker.endWalk_trace (w : Walker) (outcome : WalkResult) :
    (w.endWalk outcome).trace = w.trace := rfl

@[simp] theorem Walker.endWalk_traceLen (w : Walker) (outcome : WalkResult) :
    (w.endWalk outcome).traceLen = w.traceLen := rfl

@[simp] theorem Walker.endWalk_result (w : Walker) (outcome : WalkResult) :
    (w.endWalk outcome).result = outcome := rfl

@[simp] theorem Walker.release_fsm (w : Walker) :
    (w.release).fsm = .idle := rfl

@[simp] theorem Walker.release_level (w : Walker) :
    (w.release).level = w.level := rfl

@[simp] theorem Walker.release_idx (w : Walker) :
    (w.release).idx = w.idx := rfl

@[simp] theorem Walker.release_curTable (w : Walker) :
    (w.release).curTable = w.curTable := rfl

@[simp] theorem Walker.release_trace (w : Walker) :
    (w.release).trace = w.trace := rfl

@[simp] theorem Walker.release_traceLen (w : Walker) :
    (w.release).traceLen = w.traceLen := rfl

@[simp] theorem Walker.release_result (w : Walker) :
    (w.release).result = w.result := rfl

@[simp] theorem Walker.start_fsm (w : Walker) (tableBase va : Word64) :
    (w.start tableBase va).fsm = .issue := rfl

@[simp] theorem Walker.start_level (w : Walker) (tableBase va : Word64) :
    (w.start tableBase va).level = 0 := rfl

@[simp] theorem Walker.start_idx (w : Walker) (tableBase va : Word64) :
    (w.start tableBase va).idx = (decompose va).indices := rfl

@[simp] theorem Walker.start_curTable (w : Walker) (tableBase va : Word64) :
    (w.start tableBase va).curTable = tableBase := rfl

@[simp] theorem Walker.start_trace (w : Walker) (tableBase va : Word64) :
    (w.start tableBase va).trace = w.trace := rfl

@[simp] theorem Walker.start_traceLen (w : Walker) (tableBase va : Word64) :
    (w.start tableBase va).traceLen = 0#3 := rfl

@[simp] theorem Walker.start_result (w : Walker) (tableBase va : Word64) :
    (w.start tableBase va).result = w.result := rfl

@[simp] theorem Walker.reject_fsm (w : Walker) :
    (w.reject).fsm = .done := rfl

@[simp] theorem Walker.reject_level (w : Walker) :
    (w.reject).level = w.level := rfl

@[simp] theorem Walker.reject_idx (w : Walker) :
    (w.reject).idx = w.idx := rfl

@[simp] theorem Walker.reject_curTable (w : Walker) :
    (w.reject).curTable = w.curTable := rfl

@[simp] theorem Walker.reject_trace (w : Walker) :
    (w.reject).trace = w.trace := rfl

@[simp] theorem Walker.reject_traceLen (w : Walker) :
    (w.reject).traceLen = 0#3 := rfl

@[simp] theorem Walker.reject_result (w : Walker) :
    (w.reject).result = .malformedArgument := rfl

@[simp] theorem Walker.follow_fsm (w : Walker) (oa : Word64) :
    (w.follow oa).fsm = .issue := rfl

@[simp] theorem Walker.follow_level (w : Walker) (oa : Word64) :
    (w.follow oa).level = w.level + 1 := rfl

@[simp] theorem Walker.follow_idx (w : Walker) (oa : Word64) :
    (w.follow oa).idx = w.idx := rfl

@[simp] theorem Walker.follow_curTable (w : Walker) (oa : Word64) :
    (w.follow oa).curTable = oa := rfl

@[simp] theorem Walker.follow_trace (w : Walker) (oa : Word64) :
    (w.follow oa).trace = w.trace := rfl

@[simp] theorem Walker.follow_traceLen (w : Walker) (oa : Word64) :
    (w.follow oa).traceLen = w.traceLen := rfl

@[simp] theorem Walker.follow_result (w : Walker) (oa : Word64) :
    (w.follow oa).result = w.result := rfl

@[simp] theorem Walker.answerErr_fsm (w : Walker) (e : ReadError) :
    (w.answerErr e).fsm = .done := rfl

@[simp] theorem Walker.answerErr_level (w : Walker) (e : ReadError) :
    (w.answerErr e).level = w.level := rfl

@[simp] theorem Walker.answerErr_idx (w : Walker) (e : ReadError) :
    (w.answerErr e).idx = w.idx := rfl

@[simp] theorem Walker.answerErr_curTable (w : Walker) (e : ReadError) :
    (w.answerErr e).curTable = w.curTable := rfl

@[simp] theorem Walker.answerErr_trace (w : Walker) (e : ReadError) :
    (w.answerErr e).trace = w.trace := rfl

@[simp] theorem Walker.answerErr_traceLen (w : Walker) (e : ReadError) :
    (w.answerErr e).traceLen = w.traceLen := rfl

@[simp] theorem Walker.answerErr_result (w : Walker) (e : ReadError) :
    (w.answerErr e).result = .readFailure w.level w.curTable w.curIndex e := rfl

/-! ### The four-fold registers -/

@[simp] theorem quad_get_zero {α : Type} (q : Quad α) : q.get 0 = q.at0 := rfl

@[simp] theorem quad_get_one {α : Type} (q : Quad α) : q.get 1 = q.at1 := rfl

@[simp] theorem quad_get_two {α : Type} (q : Quad α) : q.get 2 = q.at2 := rfl

@[simp] theorem quad_get_three {α : Type} (q : Quad α) : q.get 3 = q.at3 := rfl

/-- Reading the element just written. -/
@[simp] theorem quad_get_set_same {α : Type} (q : Quad α) (l : Level) (x : α) : (q.set l x).get l = x := by
  match l with
  | 0 => rfl
  | 1 => rfl
  | 2 => rfl
  | 3 => rfl

/-- Reading another element than the one written. -/
theorem quad_get_set_other {α : Type} (q : Quad α) (l k : Level) (x : α) (h : k ≠ l) :
    (q.set l x).get k = q.get k := by
  match l, k with
  | 0, 1 => rfl
  | 0, 2 => rfl
  | 0, 3 => rfl
  | 1, 0 => rfl
  | 1, 2 => rfl
  | 1, 3 => rfl
  | 2, 0 => rfl
  | 2, 1 => rfl
  | 2, 3 => rfl
  | 3, 0 => rfl
  | 3, 1 => rfl
  | 3, 2 => rfl
  | 0, 0 => exact absurd rfl h
  | 1, 1 => exact absurd rfl h
  | 2, 2 => exact absurd rfl h
  | 3, 3 => exact absurd rfl h

/-- Writing the same element twice keeps the second value. -/
@[simp] theorem quad_set_set {α : Type} (q : Quad α) (l : Level) (x y : α) :
    (q.set l x).set l y = q.set l y := by
  match l with
  | 0 => rfl
  | 1 => rfl
  | 2 => rfl
  | 3 => rfl

end Sys2Proof.Machine
end

