-- ==== Sys2Proof/Laws/Walk.lean ====
section
/-! SUPPORT. The walk's transitions: each arm of the dispatch as an equation, everything an answer can do to the registers, and the
invariant of an instance under each transition. -/

namespace Sys2Proof.Machine

/-! ### The meanings, cited instead of unfolding the dispatch -/

theorem exec_walk_idle (tb va : Word64) (s : State) (h : s.walker.fsm = .idle) :
    exec (.walk tb va) s = .next (s.accept tb va) := by
  simp [exec, execWalk, h]

theorem exec_walk_busy (tb va : Word64) (s : State) (h : s.walker.fsm ≠ .idle) :
    exec (.walk tb va) s = .next (s.keepRequest (packReq tb va)) := by
  simp [exec, execWalk, h]

/-- ACCEPT's two branches (R157). -/
theorem accept_malformed (s : State) (tb va : Word64) (h : isMalformed s.params tb va = true) :
    s.accept tb va = s.clearSent.withWalker s.walker.reject := by
  simp [State.accept, h]

theorem accept_wellformed (s : State) (tb va : Word64) (h : isMalformed s.params tb va = false) :
    s.accept tb va = s.clearSent.withWalker (s.walker.start (s.params.operandBase tb) va) := by
  simp [State.accept, h]

/-- What ACCEPT leaves alone. -/
theorem accept_frame (s : State) (tb va : Word64) :
    (s.accept tb va).mem = s.mem ∧ (s.accept tb va).params = s.params ∧ (s.accept tb va).others = s.others ∧
    (s.accept tb va).schedule = s.schedule ∧ (s.accept tb va).ports = { s.ports with sent := [] } := by
  unfold State.accept
  split <;> exact ⟨rfl, rfl, rfl, rfl, rfl⟩

theorem takeAnswer_wait (s : State) (r : ReadResult) (h : s.walker.fsm = .wait) :
    s.takeAnswer r = (s.driveReader r).withWalker (s.walker.answered r) := by
  simp [State.takeAnswer, h]

theorem takeAnswer_other (s : State) (r : ReadResult) (h : s.walker.fsm ≠ .wait) : s.takeAnswer r = s := by
  simp [State.takeAnswer, h]

theorem outstanding_wait (w : Walker) (h : w.fsm = .wait) :
    w.outstanding = some { tableBase := w.curTable, index := w.curIndex } := by
  simp [Walker.outstanding, h]

theorem outstanding_none (w : Walker) (h : w.fsm ≠ .wait) : w.outstanding = none := by
  unfold Walker.outstanding
  split
  · contradiction
  · rfl

theorem awaits_self (w : Walker) (h : w.fsm = .wait) : w.awaits w.curTable w.curIndex = true := by
  simp [Walker.awaits, outstanding_wait w h]

/-- When the read presented is the outstanding one (R34). -/
theorem awaits_iff (w : Walker) (tb : Word64) (ix : Index) :
    w.awaits tb ix = true ↔ w.fsm = .wait ∧ tb = w.curTable ∧ ix = w.curIndex := by
  by_cases h : w.fsm = .wait
  · simp only [Walker.awaits, outstanding_wait w h, beq_iff_eq, Option.some.injEq, RdReq.mk.injEq, h, true_and]
    exact ⟨fun ⟨a, b⟩ => ⟨a.symm, b.symm⟩, fun ⟨a, b⟩ => ⟨a.symm, b.symm⟩⟩
  · simp [Walker.awaits, outstanding_none w h, h]

theorem exec_readU64_awaited (tb : Word64) (ix : Index) (s : State) (h : s.walker.awaits tb ix = true) :
    exec (.readU64 tb ix) s =
      .next ((s.driveReader (s.readU64 tb ix)).withWalker (s.walker.answered (s.readU64 tb ix))) := by
  have hw := ((awaits_iff _ _ _).1 h).1
  simp [exec, execReadU64, h, takeAnswer_wait s _ hw]

theorem exec_readU64_other (tb : Word64) (ix : Index) (s : State) (h : s.walker.awaits tb ix = false) :
    exec (.readU64 tb ix) s = .next (s.driveReader (s.readU64 tb ix)) := by
  simp [exec, execReadU64, h]

/-! ### Everything an answer can do (R159, R160) -/

/-- The registers after each kind of answer. -/
theorem answered_cases (w : Walker) (r : ReadResult) :
    (∃ e, r = .err e ∧ w.answered r = w.endWalk (.readFailure w.level w.curTable w.curIndex e)) ∨
    (∃ v, r = .ok v ∧ entryValid v = false ∧ classify v w.level = .invalid ∧
      w.answered r = (w.appendStep (w.stepFor v)).endWalk (.failure w.level)) ∨
    (∃ v, r = .ok v ∧ w.level < 3 ∧ entryValid v = true ∧ entryType v = false ∧ classify v w.level = .block ∧
      w.answered r = (w.appendStep (w.stepFor v)).endWalk (.stopped w.level)) ∨
    (∃ v, r = .ok v ∧ w.level < 3 ∧ entryValid v = true ∧ entryType v = true ∧
      classify v w.level = .table (outputAddress v) ∧
      w.answered r = (w.appendStep (w.stepFor v)).follow (outputAddress v)) ∨
    (∃ v, r = .ok v ∧ w.level = 3 ∧ entryValid v = true ∧ classify v w.level = .page (outputAddress v) ∧
      w.answered r =
        (w.appendStep (w.stepFor v)).endWalk (.success (outputAddress v) (decodePermissions v))) := by
  cases r with
  | err e => exact .inl ⟨e, rfl, rfl⟩
  | ok v =>
    right
    rcases classify_cases v w.level with ⟨h, hc⟩ | ⟨hl, hv, ht, hc⟩ | ⟨hl, hv, ht, hc⟩ | ⟨hl, hv, hc⟩
    · exact .inl ⟨v, rfl, h, hc, by simp [Walker.answered, Walker.answerOk, hc]⟩
    · exact .inr (.inl ⟨v, rfl, hl, hv, ht, hc, by simp [Walker.answered, Walker.answerOk, hc]⟩)
    · exact .inr (.inr (.inl ⟨v, rfl, hl, hv, ht, hc, by simp [Walker.answered, Walker.answerOk, hc]⟩))
    · exact .inr (.inr (.inr ⟨v, rfl, hl, hv, hc, by simp [Walker.answered, Walker.answerOk, hc]⟩))

/-- An answer changes neither the indices nor another slot of the trace. -/
theorem answered_frame (w : Walker) (r : ReadResult) :
    (w.answered r).idx = w.idx ∧
    ∀ l : Level, l ≠ w.level → (w.answered r).trace.get l = w.trace.get l := by
  rcases answered_cases w r with ⟨e, -, h⟩ | ⟨v, -, -, -, h⟩ | ⟨v, -, -, -, -, -, h⟩ | ⟨v, -, -, -, -, -, h⟩ | ⟨v, -, -, -, -, h⟩ <;>
    rw [h]
  · exact ⟨rfl, fun _ _ => rfl⟩
  all_goals exact ⟨rfl, fun l hl => quad_get_set_other _ _ _ _ hl⟩

end Sys2Proof.Machine
end

