-- ==== Sys2Proof/Laws/Step.lean ====
section
/-! SUPPORT. Everything an instruction, a turn and a step can do, said once. -/

namespace Sys2Proof.Machine

/-! ### One instruction -/

/-- Everything a meaning that answers a next state can have done: presented an output, kept a request, accepted one, or taken the answer
to the outstanding read. -/
theorem exec_cases (i : Instr) (s t : State) (h : exec i s = .next t) :
    ((∃ d, t = s.driveDecompose d) ∨ (∃ c, t = s.driveClassify c) ∨ (∃ p, t = s.drivePerms p) ∨
      (∃ l, t = s.driveLines l)) ∨
    (∃ tb va, i = .walk tb va ∧
      ((s.walker.fsm = .idle ∧ t = s.accept tb va) ∨
       (s.walker.fsm ≠ .idle ∧ t = s.keepRequest (packReq tb va)))) ∨
    (∃ tb ix, i = .readU64 tb ix ∧
      ((s.walker.fsm = .wait ∧ tb = s.walker.curTable ∧ ix = s.walker.curIndex ∧
          t = (s.driveReader (s.readU64 tb ix)).withWalker (s.walker.answered (s.readU64 tb ix))) ∨
       (s.walker.awaits tb ix = false ∧ t = s.driveReader (s.readU64 tb ix)))) := by
  cases i <;>
    simp only [exec, execDecompose, execClassifyInvalid, execClassifyBlock, execClassifyTable, execClassifyPage,
      execDecodePermissions, execPermUxnClear, execPermPxnClear, execPermAp0, execPermAp1, execPermAp2, execPermAp3] at h
  case decompose va =>
    cases h
    exact .inl (.inl ⟨_, rfl⟩)
  case walk tb va =>
    refine .inr (.inl ⟨tb, va, rfl, ?_⟩)
    by_cases hf : s.walker.fsm = .idle
    · simp only [execWalk, hf, if_true] at h
      cases h
      exact .inl ⟨hf, rfl⟩
    · simp only [execWalk, hf, if_false] at h
      cases h
      exact .inr ⟨hf, rfl⟩
  case readU64 tb ix =>
    refine .inr (.inr ⟨tb, ix, rfl, ?_⟩)
    simp only [execReadU64] at h
    split at h
    · rename_i hw
      obtain ⟨hw, h1, h2⟩ := (awaits_iff _ _ _).1 hw
      rw [takeAnswer_wait _ _ hw] at h
      cases h
      exact .inl ⟨hw, h1, h2, rfl⟩
    · rename_i hw
      cases h
      exact .inr ⟨by simpa using hw, rfl⟩
  all_goals first
    | exact .inl (.inr (.inr (.inr ⟨_, presentLines_next h⟩)))
    | (split at h
       · first
         | exact .inl (.inr (.inr (.inr ⟨_, presentLines_next h⟩)))
         | (cases h
            first
            | exact .inl (.inr (.inl ⟨_, rfl⟩))
            | exact .inl (.inr (.inr (.inl ⟨_, rfl⟩))))
       · cases h)

/-- No meaning ends in a fault. -/
theorem exec_no_fault (i : Instr) (s : State) (f : Fault) : exec i s ≠ .fault f := by
  cases i <;>
    simp only [exec, execDecompose, execClassifyInvalid, execClassifyBlock, execClassifyTable, execClassifyPage,
      execDecodePermissions, execPermUxnClear, execPermPxnClear, execPermAp0, execPermAp1, execPermAp2, execPermAp3,
      execWalk, execReadU64, ne_eq, reduceCtorEq, not_false_eq_true]
  all_goals first
    | exact presentLines_no_fault _ _ _ _
    | (split <;> first | exact presentLines_no_fault _ _ _ _ | simp)

/-! ### The fetch -/

/-- The state a fetched instruction acts on. -/
theorem fetched_eq (s : State) :
    s.fetched = { s with
      schedule := s.schedule.tail
      ports := { s.ports with
        pending := if s.turn = .proceed ∧ s.walker.fsm = .idle then s.ports.pending.tail
          else s.ports.pending } } := by
  unfold State.fetched
  split
  · rename_i h1 h2
    simp [h1, h2, State.dropRequest, State.afterTurn, State.withSchedule]
  · rename_i h
    have : ¬ (s.turn = .proceed ∧ s.walker.fsm = .idle) := fun ⟨a, b⟩ => h a b
    simp [this, State.afterTurn, State.withSchedule]

@[simp] theorem fetched_walker (s : State) : s.fetched.walker = s.walker := by rw [fetched_eq]

@[simp] theorem fetched_others (s : State) : s.fetched.others = s.others := by rw [fetched_eq]

@[simp] theorem fetched_mem (s : State) : s.fetched.mem = s.mem := by rw [fetched_eq]

@[simp] theorem fetched_params (s : State) : s.fetched.params = s.params := by rw [fetched_eq]

@[simp] theorem fetched_schedule (s : State) : s.fetched.schedule = s.schedule.tail := by rw [fetched_eq]

@[simp] theorem fetched_sent (s : State) : s.fetched.ports.sent = s.ports.sent := by rw [fetched_eq]

/-- A word is presented only by an `operate` turn, or on `proceed` in IDLE or WAIT. -/
theorem fetch_some_turn {s : State} {p : Port} {bs : List Byte} (h : s.fetch = some (p, bs)) :
    s.turn = .operate p bs ∨
    (s.turn = .proceed ∧ s.walker.fsm = .idle ∧ ∃ w rest, s.ports.pending = w :: rest ∧
      p = .request ∧ bs = bytesLE (portBytes .request) w.toNat) ∨
    (s.turn = .proceed ∧ s.walker.fsm = .wait ∧ s.params.readerAttached = true ∧
      p = .reader ∧ bs = bytesLE (portBytes .reader) (packRdReq s.walker.curTable s.walker.curIndex).toNat) := by
  unfold State.fetch at h
  split at h
  · rename_i ht
    cases h
    exact .inl ht
  · rename_i ht
    split at h
    · rename_i hf
      split at h
      · cases h
      · rename_i hp
        cases h
        exact .inr (.inl ⟨ht, hf, _, _, hp, rfl, rfl⟩)
    · rename_i hf
      split at h
      · rename_i ha
        rw [outstanding_wait _ hf] at h
        cases h
        exact .inr (.inr ⟨ht, hf, ha, rfl, rfl⟩)
      · cases h
    · cases h
  · cases h

/-! ### One step -/

/-- A turn that presents no word. -/
theorem step_of_no_fetch (s : State) (h : s.fetch = none) : step s = s.afterTurn.act s.turn := by
  simp [step, State.takeTurn, h]

/-- A turn that presents a word. -/
theorem step_of_fetch (s : State) {p : Port} {bs : List Byte} {i : Instr} (h : s.fetch = some (p, bs))
    (hd : decode p bs = .ok i) : step s = exec i s.fetched := by
  simp [step, State.takeTurn, h, hd]

/-- Everything a step that answers a next state can have been: an instruction's meaning, or a turn of some agent. -/
theorem step_cases (s t : State) (h : step s = .next t) :
    (∃ p bs i, s.fetch = some (p, bs) ∧ decode p bs = .ok i ∧ exec i s.fetched = .next t) ∨
    (s.fetch = none ∧ s.afterTurn.act s.turn = .next t) := by
  simp only [step, State.takeTurn] at h
  split at h
  · rename_i p bs hf
    split at h
    · rename_i i hd
      exact .inl ⟨p, bs, i, hf, hd, h⟩
    · cases h
  · exact .inr ⟨by assumption, h⟩

/-- Everything a turn that presents no word can do. -/
theorem act_cases (s t : State) (u : Turn) (h : s.act u = .next t) :
    t = s ∨
    (u = .proceed ∧ s.walker.fsm = .issue ∧ t = s.issueRead) ∨
    (u = .proceed ∧ s.walker.fsm = .done ∧ t = s.deliver) ∨
    (∃ r, u = .answer r ∧ s.walker.fsm = .wait ∧
      t = (s.driveReader (r.reported s.params.errorType)).withWalker (s.walker.answered (r.reported s.params.errorType))) ∨
    (∃ a bs, u = .agentWrite a bs ∧ t = s.agentWrite a bs) ∨
    (∃ a n, u = .agentErase a n ∧ t = s.agentErase a n) ∨
    (∃ k o, u = .select k ∧ s.others[k]? = some o ∧ t = s.selectWalker k o) ∨
    (u = .reset ∧ t = s.resetInstance) := by
  unfold State.act at h
  split at h
  · split at h <;> cases h
    · exact .inl rfl
    · exact .inr (.inl ⟨rfl, by assumption, rfl⟩)
    · exact .inl rfl
    · exact .inr (.inr (.inl ⟨rfl, by assumption, rfl⟩))
  · cases h; exact .inl rfl
  · cases h; exact .inl rfl
  · rename_i r
    cases h
    by_cases hw : s.walker.fsm = .wait
    · exact .inr (.inr (.inr (.inl ⟨r, rfl, hw, takeAnswer_wait s _ hw⟩)))
    · exact .inl (takeAnswer_other s _ hw)
  · cases h; exact .inl rfl
  · cases h; exact .inr (.inr (.inr (.inr (.inl ⟨_, _, rfl, rfl⟩))))
  · cases h; exact .inr (.inr (.inr (.inr (.inr (.inl ⟨_, _, rfl, rfl⟩)))))
  · split at h
    · rename_i k _ o ho
      cases h
      exact .inr (.inr (.inr (.inr (.inr (.inr (.inl ⟨k, o, rfl, ho, rfl⟩))))))
    · cases h
  · cases h; exact .inr (.inr (.inr (.inr (.inr (.inr (.inr ⟨rfl, rfl⟩))))))

/-! ### Runs -/

@[simp] theorem run_zero (s : State) : s.run 0 = .next s := rfl

/-- One step more at the front. -/
theorem run_succ (k : Nat) (s t : State) (h : step s = .next t) : s.run (k + 1) = t.run k := by
  simp only [State.run, Host.Core.run, core, h]

/-- A run's first step was a next state. -/
theorem run_succ_inv {k : Nat} {s t : State} (h : s.run (k + 1) = .next t) :
    ∃ u, step s = .next u ∧ u.run k = .next t := by
  simp only [State.run, Host.Core.run, core] at h
  split at h
  · rename_i u hu
    exact ⟨u, hu, h⟩
  · cases h
  · cases h

/-- With nothing scheduled, the turn is `proceed` and using it up changes nothing. -/
theorem turn_of_empty (s : State) (h : s.schedule = []) : s.turn = .proceed := by
  simp [State.turn, h]

theorem afterTurn_of_empty (s : State) (h : s.schedule = []) : s.afterTurn = s := by
  cases s
  simp only at h
  subst h
  rfl

end Sys2Proof.Machine
end

