-- ==== Sys2Proof/Tests/Slice0.lean ====
section
/-! SUPPORT. The model's own tests. Expected values are those of spec/95_test_vectors.md (its row is named in each comment) or are written out
from the encodings of spec/30_encoding.md. -/

namespace Sys2Proof.Tests

open Sys2Proof Sys2Proof.Machine

/-! ### Helpers -/

/-- The registers of a walk of `walk 0x1000, 0x401000` (indices 0, 0, 2, 1) at a point. -/
def regs (fsm : Fsm) (level : Level) (curTable : Word64) (trace : Quad WalkStep) (traceLen : BitVec 3) : Walker :=
  { Walker.reset with
    fsm := fsm, level := level, idx := ⟨0#9, 0#9, 2#9, 1#9⟩, curTable := curTable, trace := trace, traceLen := traceLen }

/-- Program P1's steps. -/
def p1Steps : Quad WalkStep :=
  ⟨⟨0, 0x1000#64, 0#9, 0x2003#64, .table⟩, ⟨1, 0x2000#64, 0#9, 0x3003#64, .table⟩,
   ⟨2, 0x3000#64, 2#9, 0x4003#64, .table⟩, ⟨3, 0x4000#64, 1#9, 0x00200000000500C3#64, .page⟩⟩

/-- The flags PR, UR, UX. -/
def p1Perms : Perms := Perms.unpack 0x29#6

/-- Reset with these registers and turns. -/
def mk (w : Walker) (turns : List Turn) : State := { State.reset with walker := w, schedule := turns }

/-- The walker of S2, S3, S4 and S5 in its state before. -/
def wIssue2 : Walker := regs .issue 2 0x3000#64 p1Steps 2#3
def wWait0 : Walker := regs .wait 0 0x1000#64 Walker.reset.trace 0#3
def wWait1 : Walker := regs .wait 1 0x2000#64 p1Steps 1#3
def wWait3 : Walker := regs .wait 3 0x4000#64 p1Steps 3#3
def wDone : Walker := { regs .done 3 0x4000#64 p1Steps 4#3 with result := .success 0x50000#64 p1Perms }

/-- Slot (0x1000, 0) holds 0x2003. -/
def memL0 : Memory :=
  [(0x1000, 0x03#8), (0x1001, 0x20#8), (0x1002, 0#8), (0x1003, 0#8), (0x1004, 0#8), (0x1005, 0#8), (0x1006, 0#8), (0x1007, 0#8)]

/-- The outcome's next state has the property. -/
def nextIs (o : Host.Outcome State Fault Refusal) (p : State → Bool) : Bool :=
  match o with
  | .next t => p t
  | .fault _ => false
  | .refused _ => false

/-- The outcome is this refusal. -/
def refusedBy (o : Host.Outcome State Fault Refusal) (r : Refusal) : Bool :=
  match o with
  | .next _ => false
  | .fault _ => false
  | .refused r' => decide (r' = r)

/-- What a decoding gives. -/
def decodesTo (e : Except DecodeError Instr) (i : Instr) : Bool :=
  match e with
  | .ok j => decide (j = i)
  | .error _ => false

/-! ### WellFormed: an ill-formed term for each check -/

theorem test_wf_invalid : Instr.wf (.classifyInvalid 0x1#64 0) = false := by decide
theorem test_wf_block_level : Instr.wf (.classifyBlock 0x1#64 3) = false := by decide
theorem test_wf_block_bits : Instr.wf (.classifyBlock 0x3#64 1) = false ∧ Instr.wf (.classifyBlock 0x0#64 1) = false := by decide
theorem test_wf_table_level : Instr.wf (.classifyTable 0x3#64 3) = false := by decide
theorem test_wf_table_bits : Instr.wf (.classifyTable 0x1#64 2) = false ∧ Instr.wf (.classifyTable 0x2#64 2) = false := by decide
theorem test_wf_page_level : Instr.wf (.classifyPage 0x3#64 2) = false := by decide
theorem test_wf_page_bits : Instr.wf (.classifyPage 0x2#64 3) = false := by decide
theorem test_wf_ap :
    Instr.wf (.permAp0 ⟨0x43#64, 3⟩) = false ∧ Instr.wf (.permAp1 ⟨0x83#64, 3⟩) = false ∧
    Instr.wf (.permAp2 ⟨0xC3#64, 3⟩) = false ∧ Instr.wf (.permAp3 ⟨0x3#64, 3⟩) = false := by decide

/-! ### Decoding: words written out from the encodings, least significant byte first -/

/-- R81: va = 0x0000123456789ABC (A10). -/
theorem test_decode_decompose :
    decodesTo (decode .decomposer [0xBC#8, 0x9A#8, 0x78#8, 0x56#8, 0x34#8, 0x12#8, 0x00#8, 0x00#8])
      (.decompose 0x0000123456789ABC#64) = true := by decide

/-- R88: C2, C7, C8 at level 0 and C7 at level 3. -/
theorem test_decode_classify :
    decodesTo (decode (.classifier 0) [0x02#8, 0x00#8, 0x00#8, 0x00#8, 0x00#8, 0x00#8, 0x00#8, 0x00#8]) (.classifyInvalid 0x2#64 0) = true ∧
    decodesTo (decode (.classifier 0) [0x01#8, 0x20#8, 0x00#8, 0x00#8, 0x00#8, 0x00#8, 0x00#8, 0x00#8]) (.classifyBlock 0x2001#64 0) = true ∧
    decodesTo (decode (.classifier 2) [0x03#8, 0x20#8, 0x00#8, 0x00#8, 0x00#8, 0x00#8, 0x00#8, 0x00#8]) (.classifyTable 0x2003#64 2) = true ∧
    decodesTo (decode (.classifier 3) [0x01#8, 0x20#8, 0x00#8, 0x00#8, 0x00#8, 0x00#8, 0x00#8, 0x00#8]) (.classifyPage 0x2001#64 3) = true := by
  decide

/-- R86: Q1, Q5, Q9, Q13 on the access lines, Q2 on the others. -/
theorem test_decode_permissions :
    decodesTo (decode (.accessLines 3) [0x03#8, 0x00#8, 0x00#8, 0x00#8, 0x00#8, 0x00#8, 0x00#8, 0x00#8]) (.permAp0 ⟨0x3#64, 3⟩) = true ∧
    decodesTo (decode (.accessLines 3) [0x43#8, 0x00#8, 0x00#8, 0x00#8, 0x00#8, 0x00#8, 0x00#8, 0x00#8]) (.permAp1 ⟨0x43#64, 3⟩) = true ∧
    decodesTo (decode (.accessLines 3) [0x83#8, 0x00#8, 0x00#8, 0x00#8, 0x00#8, 0x00#8, 0x00#8, 0x00#8]) (.permAp2 ⟨0x83#64, 3⟩) = true ∧
    decodesTo (decode (.accessLines 3) [0xC3#8, 0x00#8, 0x00#8, 0x00#8, 0x00#8, 0x00#8, 0x00#8, 0x00#8]) (.permAp3 ⟨0xC3#64, 3⟩) = true ∧
    decodesTo (decode (.userExecLine 3) [0x03#8, 0x00#8, 0x00#8, 0x00#8, 0x00#8, 0x00#8, 0x20#8, 0x00#8])
      (.permUxnClear ⟨0x0020000000000003#64, 3⟩) = true ∧
    decodesTo (decode (.privExecLine 3) [0x03#8, 0x00#8, 0x00#8, 0x00#8, 0x00#8, 0x00#8, 0x20#8, 0x00#8])
      (.permPxnClear ⟨0x0020000000000003#64, 3⟩) = true ∧
    decodesTo (decode (.permissions 3) [0x03#8, 0x00#8, 0x00#8, 0x00#8, 0x00#8, 0x00#8, 0x20#8, 0x00#8])
      (.decodePermissions 0x0020000000000003#64 3) = true := by decide

/-- R92: `walk 0x1000, 0x401000` is req_table_base in bits 127:64, req_va in bits 63:0. -/
theorem test_decode_walk :
    decodesTo (decode .request [0x00#8, 0x10#8, 0x40#8, 0x00#8, 0x00#8, 0x00#8, 0x00#8, 0x00#8,
        0x00#8, 0x10#8, 0x00#8, 0x00#8, 0x00#8, 0x00#8, 0x00#8, 0x00#8])
      (.walk 0x1000#64 0x401000#64) = true := by decide

/-- R97: (0x1004, 0x1FF): 0x1004 shifted by 9 is 0x200800, or 0x1FF is 0x2009FF. A set padding bit and a wrong length are refused. -/
theorem test_decode_read :
    decodesTo (decode .reader [0xFF#8, 0x09#8, 0x20#8, 0x00#8, 0x00#8, 0x00#8, 0x00#8, 0x00#8, 0x00#8, 0x00#8])
      (.readU64 0x1004#64 0x1FF#9) = true ∧
    (decode .reader [0x00#8, 0x00#8, 0x00#8, 0x00#8, 0x00#8, 0x00#8, 0x00#8, 0x00#8, 0x00#8, 0x02#8]).toOption = none ∧
    (decode .reader [0x00#8]).toOption = none := by decide

/-- The table's 64-bit words without a port (log entry 2). -/
theorem test_decode_table_word :
    decodeTableWord 64 0x3 = some (.classifyTable 0x3#64 0) ∧ decodeTableWord 64 0 = some (.classifyInvalid 0#64 0) ∧ decodeTableWord 64 0x80 = some (.permAp2 ⟨0x80#64, 3⟩) ∧
    decodeTableWord 128 0 = some (.walk 0#64 0#64) ∧ decodeTableWord 73 0 = some (.readU64 0#64 0#9) ∧
    decodeTableWord 32 0 = none := by decide

/-- A placed word is what the next step runs. -/
theorem test_fetch_word :
    nextIs (step (State.reset.withFetchWord 64 0x2003)) (fun t => decide (t.ports.classifyOut = some (.table 0x2000#64))) = true ∧
    nextIs (step (State.reset.withFetchWord 128 0)) (fun t => decide (t.walker.fsm = .issue)) = true := by decide

/-! ### One step per instruction -/

/-- A10, and A4: the kernel-half address is not refused. -/
theorem test_decompose :
    nextIs (exec (.decompose 0x0000123456789ABC#64) State.reset)
      (fun t => decide (t.ports.decomposeOut = some ⟨0x024#9, 0x0D1#9, 0x0B3#9, 0x189#9, 0xABC#12⟩)) = true ∧
    nextIs (exec (.decompose 0xFFFF800000401000#64) State.reset)
      (fun t => decide (t.ports.decomposeOut = some ⟨0x100#9, 0#9, 2#9, 1#9, 0#12⟩)) = true := by decide

/-- A11. -/
theorem test_decompose_noncanonical : decompose 0xDEADBEEFCAFEF00D#64 = ⟨0x17D#9, 0x1BF#9, 0x057#9, 0x1EF#9, 0x00D#12⟩ := by decide

/-- C3 at every level. -/
theorem test_classify_invalid : ∀ l : Level, nextIs (exec (.classifyInvalid 0xFFFFFFFFFFFFFFFE#64 l) State.reset)
    (fun t => decide (t.ports.classifyOut = some .invalid)) = true := by decide

/-- C19: a Block carries no address. C15 at level 0. -/
theorem test_classify_block :
    nextIs (exec (.classifyBlock 0x0000000040000701#64 1) State.reset) (fun t => decide (t.ports.classifyOut = some .block)) = true ∧
    nextIs (exec (.classifyBlock 0xFFFFFFFFFFFFFFFD#64 0) State.reset) (fun t => decide (t.ports.classifyOut = some .block)) = true := by
  decide

/-- C17 at level 2, C14 at level 0. -/
theorem test_classify_table :
    nextIs (exec (.classifyTable 0xF800000012345FFF#64 2) State.reset)
      (fun t => decide (t.ports.classifyOut = some (.table 0x12345000#64))) = true ∧
    nextIs (exec (.classifyTable 0xFFFFFFFFFFFFFFFF#64 0) State.reset)
      (fun t => decide (t.ports.classifyOut = some (.table 0x0000FFFFFFFFF000#64))) = true := by decide

/-- C13, and C7: bit 1 is not looked at. -/
theorem test_classify_page :
    nextIs (exec (.classifyPage 0x00200000000500C3#64 3) State.reset)
      (fun t => decide (t.ports.classifyOut = some (.page 0x50000#64))) = true ∧
    nextIs (exec (.classifyPage 0x2001#64 3) State.reset)
      (fun t => decide (t.ports.classifyOut = some (.page 0x2000#64))) = true := by decide

/-- Q18 and Q22. -/
theorem test_decode_permissions_flags :
    nextIs (exec (.decodePermissions 0x00200000000500C3#64 3) State.reset)
      (fun t => decide (t.ports.permsOut.map Perms.pack = some 0x29#6)) = true ∧
    nextIs (exec (.decodePermissions 0x0060000000070041#64 3) State.reset)
      (fun t => decide (t.ports.permsOut.map Perms.pack = some 0x1B#6)) = true := by decide

/-- Q1 to Q16, the column PERMS. -/
theorem test_permission_table :
    ([0x3#64, 0x0020000000000003#64, 0x0040000000000003#64, 0x0060000000000003#64,
      0x43#64, 0x0020000000000043#64, 0x0040000000000043#64, 0x0060000000000043#64,
      0x83#64, 0x0020000000000083#64, 0x0040000000000083#64, 0x0060000000000083#64,
      0xC3#64, 0x00200000000000C3#64, 0x00400000000000C3#64, 0x00600000000000C3#64].map
        (fun e => (decodePermissions e).pack)) =
    [0x27#6, 0x23#6, 0x07#6, 0x03#6, 0x3F#6, 0x3B#6, 0x1F#6, 0x1B#6,
     0x25#6, 0x21#6, 0x05#6, 0x01#6, 0x2D#6, 0x29#6, 0x0D#6, 0x09#6] := by decide

/-- R136 on Q3 and Q2. -/
theorem test_uxn_line :
    nextIs (exec (.permUxnClear ⟨0x0040000000000003#64, 3⟩) State.reset) (fun t => decide (t.ports.permLines.userExec = some false)) = true ∧
    nextIs (exec (.permUxnClear ⟨0x0020000000000003#64, 3⟩) State.reset) (fun t => decide (t.ports.permLines.userExec = some true)) = true := by
  decide

/-- R137 on Q2 and Q3. -/
theorem test_pxn_line :
    nextIs (exec (.permPxnClear ⟨0x0020000000000003#64, 3⟩) State.reset) (fun t => decide (t.ports.permLines.privExec = some false)) = true ∧
    nextIs (exec (.permPxnClear ⟨0x0040000000000003#64, 3⟩) State.reset) (fun t => decide (t.ports.permLines.privExec = some true)) = true := by
  decide

/-- The rows of the AP table. -/
theorem test_ap_lines :
    nextIs (exec (.permAp0 ⟨0x3#64, 3⟩) State.reset) (fun t => decide (t.ports.permLines = PermLines.reset.access true true false false)) = true ∧
    nextIs (exec (.permAp1 ⟨0x43#64, 3⟩) State.reset) (fun t => decide (t.ports.permLines = PermLines.reset.access true true true true)) = true ∧
    nextIs (exec (.permAp2 ⟨0x83#64, 3⟩) State.reset) (fun t => decide (t.ports.permLines = PermLines.reset.access true false false false)) = true ∧
    nextIs (exec (.permAp3 ⟨0xC3#64, 3⟩) State.reset) (fun t => decide (t.ports.permLines = PermLines.reset.access true false true false)) = true := by
  decide

/-- S1. -/
theorem test_walk_accepted : nextIs (exec (.walk 0x1000#64 0x401000#64) State.reset)
    (fun t => decide (t.walker = regs .issue 0 0x1000#64 Walker.reset.trace 0#3)) = true := by decide

/-- S7: a busy walker does not take a request, the requester keeps it. -/
theorem test_walk_busy : nextIs (exec (.walk 0x1000#64 0x401000#64) (mk wWait0 []))
    (fun t => decide (t.walker = wWait0 ∧ t.ports.pending = [0x00000000000010000000000000401000#128])) = true := by decide

/-- The slot (0x1000, 0) of P1, in bytes, and S3. -/
theorem test_read_u64 : nextIs (exec (.readU64 0x1000#64 0#9) { mk wWait0 [] with mem := memL0 })
    (fun t => decide (t.ports.readerOut = some (.ok 0x2003#64) ∧ t.walker.fsm = .issue ∧ t.walker.level = 1 ∧
      t.walker.curTable = 0x2000#64 ∧ t.walker.traceLen = 1#3 ∧ t.walker.trace.at0 = p1Steps.at0)) = true := by decide

/-- R99: a slot that is not listed answers Err. Here the slot crosses the end of the listed bytes. -/
theorem test_read_unlisted : nextIs (exec (.readU64 0x1004#64 0#9) { mk wWait0 [] with mem := memL0 })
    (fun t => decide (t.ports.readerOut = some (.err ⟨0⟩) ∧ t.walker = wWait0)) = true := by decide

/-! ### The transitions -/

/-- S2. -/
theorem test_issue : nextIs (step (mk wIssue2 []))
    (fun t => decide (t.walker = { wIssue2 with fsm := .wait } ∧ t.ports.sent = [⟨0x3000#64, 2#9⟩])) = true := by decide

/-- S4. -/
theorem test_answer_page : nextIs (step (mk wWait3 [.answer (.ok 0x00200000000500C3#64)]))
    (fun t => decide (t.walker = wDone)) = true := by decide

/-- S12: bit 0 is tested before bit 1. -/
theorem test_answer_invalid : nextIs (step (mk (regs .wait 2 0x3000#64 p1Steps 2#3) [.answer (.ok 0x2#64)]))
    (fun t => decide (t.walker.fsm = .done ∧ t.walker.traceLen = 3#3 ∧ t.walker.trace.at2.kind = .invalid ∧
      t.walker.result = .failure 2)) = true := by decide

/-- W6: a Block at level 0 stops the walk. -/
theorem test_answer_block : nextIs (step (mk wWait0 [.answer (.ok 0x1#64)]))
    (fun t => decide (t.walker.fsm = .done ∧ t.walker.result = .stopped 0 ∧ t.walker.traceLen = 1#3)) = true := by decide

/-- Parameters with an error type of many elements, and with a narrow `table_base` (R7). -/
def manyErrors : Params := { Params.default with errorType := .countable }
def narrowBase : Params := { Params.default with upperAddrBits := 0 }

/-- S5: with R7's default type the one error there is, with another type the very error reported. -/
theorem test_answer_err :
    nextIs (step (mk wWait1 [.answer (.err ⟨7⟩)]))
      (fun t => decide (t.walker = { wWait1 with fsm := .done, result := .readFailure 1 0x2000#64 0#9 ⟨0⟩ })) = true ∧
    nextIs (step { mk wWait1 [.answer (.err ⟨7⟩)] with params := manyErrors })
      (fun t => decide (t.walker = { wWait1 with fsm := .done, result := .readFailure 1 0x2000#64 0#9 ⟨7⟩ })) = true := by decide

/-- R7: `ADDR_BITS` 64 takes every base as given, 48 its low 48 bits. -/
theorem test_addr_bits :
    nextIs (exec (.walk 0xFFFF000000001004#64 0#64) State.reset) (fun t => decide (t.walker.curTable = 0xFFFF000000001004#64)) = true ∧
    nextIs (exec (.walk 0xFFFF000000001004#64 0#64) { State.reset with params := narrowBase })
      (fun t => decide (t.walker.curTable = 0x1004#64)) = true := by decide

/-- R7: a `slot_addr` that places one slot elsewhere. -/
theorem test_slot_addr :
    { State.reset with mem := memL0, params := { Params.default with slotOverrides := [⟨0x9000#64, 5#9, 0x1000#64⟩] } }.readU64 0x9000#64 5#9 =
      .ok 0x2003#64 := by decide

/-- R144, D22: a line of a word that is not of Page kind is refused. -/
theorem test_lines_refused :
    refusedBy (exec (.permAp2 ⟨0x80#64, 3⟩) State.reset) .notPageKind = true ∧
    refusedBy (exec (.permUxnClear ⟨0x1#64, 2⟩) State.reset) .notPageKind = true := by decide

/-- S6, with P1's result and trace. -/
theorem test_deliver : nextIs (step (mk wDone []))
    (fun t => decide (t.walker.fsm = .idle ∧ t.ports.delivered = [⟨.success 0x50000#64 p1Perms, p1Steps.toList⟩])) = true := by decide

/-- S8: a stray answer changes nothing. S11: reset. -/
theorem test_stray_and_reset :
    nextIs (step (mk wIssue2 [.answer (.ok 0x3#64)])) (fun t => decide (t = mk wIssue2 [])) = true ∧
    nextIs (step (mk wWait3 [.reset])) (fun t => decide (t.walker = Walker.reset ∧ t.ports.delivered = [])) = true := by decide

/-- S10. -/
def rejectAll : Params := { Params.default with malformed := [⟨0#128, 0#128⟩] }

theorem test_malformed : nextIs (exec (.walk 0x1000#64 0x401000#64) { State.reset with params := rejectAll })
    (fun t => decide (t.walker.fsm = .done ∧ t.walker.traceLen = 0#3 ∧ t.walker.result = .malformedArgument ∧ t.ports.sent = [])) = true := by
  decide

/-- E6, P1 by the procedure over a map from slots to values. -/
def p1Map (_ : Level) (tb : Word64) (ix : Index) : ReadResult :=
  if tb = 0x1000#64 ∧ ix = 0#9 then .ok 0x2003#64
  else if tb = 0x2000#64 ∧ ix = 0#9 then .ok 0x3003#64
  else if tb = 0x3000#64 ∧ ix = 2#9 then .ok 0x4003#64
  else if tb = 0x4000#64 ∧ ix = 1#9 then .ok 0x00200000000500C3#64
  else .err ⟨0⟩

theorem test_procedure_p1 : walkProcedure Params.default p1Map 0x1000#64 0x401000#64 =
    some (.success 0x50000#64 p1Perms, p1Steps.toList) := by decide

/-! ### Witnesses: for each statement with hypotheses, inputs that meet them, one for each clause -/

/-- UpperAddressBitsIgnored: R236's two addresses, an idle walker, neither request malformed. -/
theorem witness_upper_bits :
    (0x401000#64 : Word64) &&& 0x0000FFFFFFFFFFFF#64 = 0xFFFF000000401000#64 &&& 0x0000FFFFFFFFFFFF#64 ∧
    State.reset.walker.fsm = .idle ∧
    isMalformed State.reset.params 0x1000#64 0x401000#64 = isMalformed State.reset.params 0x1000#64 0xFFFF000000401000#64 := by decide

/-- InvalidWhenBitZeroClear, BlockAtUpperLevels, TableAtUpperLevels, PageAtLevelThree, DecodePermissionsGivesSixFlags. -/
theorem witness_kinds :
    BitVec.getLsbD 0xFFFFFFFFFFFFFFFE#64 0 = false ∧
    ((2 : Level).val ≤ 2 ∧ BitVec.getLsbD 0xFFFFFFFFFFFFFFFD#64 0 = true ∧ BitVec.getLsbD 0xFFFFFFFFFFFFFFFD#64 1 = false) ∧
    ((2 : Level).val ≤ 2 ∧ BitVec.getLsbD 0xFFFFFFFFFFFFFFFF#64 0 = true ∧ BitVec.getLsbD 0xFFFFFFFFFFFFFFFF#64 1 = true) ∧
    BitVec.getLsbD 0x1#64 0 = true ∧ wIssue2.level = 2 ∧ wWait3.level = 3 := by decide

/-- OutputAddressShape: both kinds. -/
theorem witness_output_address :
    classify 0xFFFFFFFFFFFFFFFF#64 2 = .table 0x0000FFFFFFFFF000#64 ∧ classify 0x1#64 3 = .page 0#64 := by decide

/-- IgnoredDescriptorBitsHaveNoEffect: two entries of each kind that differ in ignored bits only (P6's level 0 entry, C18, Q21, C3). -/
theorem witness_ignored_bits :
    0xF800000012345FFF#64 &&& lookedAt 0xF800000012345FFF#64 0 = 0x12345003#64 &&& lookedAt 0xF800000012345FFF#64 0 ∧
    0x0060000000000741#64 &&& lookedAt 0x0060000000000741#64 1 = 0x1#64 &&& lookedAt 0x0060000000000741#64 1 ∧
    0x0040000000000783#64 &&& lookedAt 0x0040000000000783#64 3 = 0x0040000000000081#64 &&& lookedAt 0x0040000000000783#64 3 ∧
    0xFFFFFFFFFFFFFFFE#64 &&& lookedAt 0xFFFFFFFFFFFFFFFE#64 3 = 0#64 &&& lookedAt 0xFFFFFFFFFFFFFFFE#64 3 := by decide

/-- AccessPermissionTable: each value of AP, on a valid entry. -/
theorem witness_ap :
    (BitVec.getLsbD 0x3#64 0 ∧ BitVec.getLsbD 0x43#64 0 ∧ BitVec.getLsbD 0x83#64 0 ∧ BitVec.getLsbD 0xFFFFFFFFFFFFFFFF#64 0) ∧
    BitVec.extractLsb' 6 2 0x3#64 = 0b00#2 ∧ BitVec.extractLsb' 6 2 0x43#64 = 0b01#2 ∧
    BitVec.extractLsb' 6 2 0x83#64 = 0b10#2 ∧ BitVec.extractLsb' 6 2 0xFFFFFFFFFFFFFFFF#64 = 0b11#2 := by decide

/-- PermissionsOnlyForPageEntries and OnlyIllFormedTermsStop: a refused word at level 3 and one at level 2, a word that is not refused, the
same of a row, and S4's answer. -/
theorem witness_permissions_only :
    (permissionEntry (.permAp2 ⟨0x80#64, 3⟩) = some ⟨0x80#64, 3⟩ ∧ Instr.wf (.permAp2 ⟨0x80#64, 3⟩) = true ∧
      refusedBy (exec (.permAp2 ⟨0x80#64, 3⟩) State.reset) .notPageKind = true ∧
      refusedBy (exec (.permAp2 ⟨0x81#64, 3⟩) State.reset) .notPageKind = false) ∧
    refusedBy (exec (.decodePermissions 0x2#64 3) State.reset) .notPageKind = true ∧
    refusedBy (exec (.decodePermissions 0x3#64 2) State.reset) .notPageKind = true ∧
    refusedBy (exec (.decodePermissions 0x1#64 3) State.reset) .notPageKind = false ∧
    ((wWait3.answerOk 0x00200000000500C3#64).fsm = .done ∧
      (wWait3.answerOk 0x00200000000500C3#64).result = .success 0x50000#64 p1Perms) := by decide

/-- AcceptTransition (both clauses), WalkRequestFrame, BusyWalkerTakesNoRequest. -/
theorem witness_accept :
    State.reset.walker.fsm = .idle ∧ isMalformed State.reset.params 0x1000#64 0x401000#64 = false ∧
    isMalformed rejectAll 0x1000#64 0x401000#64 = true ∧ (mk wDone []).walker.fsm ≠ .idle := by decide

/-- IssueTransition, AnswerOkTransition (an answer of each kind), AnswerErrTransition, DeliverTransition. -/
theorem witness_transitions :
    ((mk wIssue2 []).turn = .proceed ∧ (mk wIssue2 []).walker.fsm = .issue) ∧
    ((mk wWait3 [.answer (.ok 0x1#64)]).turn = .answer (.ok 0x1#64) ∧ (mk wWait3 []).walker.fsm = .wait) ∧
    ((classify 0x0#64 wWait3.level).kind = .invalid ∧ (classify 0x1#64 wWait3.level).kind = .page ∧
      (classify 0x1#64 wWait0.level).kind = .block ∧ (classify 0x3#64 wWait0.level).kind = .table) ∧
    ((mk wWait1 [.answer (.err ⟨7⟩)]).turn = .answer (.err ⟨7⟩) ∧ (mk wWait1 []).walker.fsm = .wait) ∧
    ((mk wDone [.proceed]).turn = .proceed ∧ (mk wDone [.proceed]).walker.fsm = .done) := by decide

/-- ReadU64IsAnsweredByTheReader and ReadU64Frame: the outstanding slot, another slot, another state. -/
theorem witness_read_u64 :
    ((mk wWait3 []).walker.fsm = .wait ∧ (0x4000#64 : Word64) = wWait3.curTable ∧ (1#9 : Index) = wWait3.idx.get wWait3.level) ∧
    ((0x4000#64 : Word64) ≠ wWait0.curTable) ∧ (2#9 : Index) ≠ wWait3.idx.get wWait3.level ∧ State.reset.walker.fsm ≠ .wait := by decide

/-- ReaderAssemblesTheSlot: P1's first slot, with a reader that serves neither unaligned nor wrapping slots. -/
theorem witness_reader_listed :
    Params.default.slotSum 0x1000#64 0#9 % 8 = 0 ∧ Params.default.slotSum 0x1000#64 0#9 + 7 < 2 ^ 64 ∧
    ∀ k : Fin 8, Memory.readByte memL0 ((Params.default.slotSum 0x1000#64 0#9 + k.val) % 2 ^ 64) ≠ none := by decide

/-- ReaderAssemblesTheSlot: a slot that wraps, at the top of the address space, served by the default reader. -/
def memTop : Memory :=
  [(0, 0x55#8), (1, 0x66#8), (2, 0x77#8), (3, 0x88#8), (2 ^ 64 - 4, 0x11#8), (2 ^ 64 - 3, 0x22#8), (2 ^ 64 - 2, 0x33#8), (2 ^ 64 - 1, 0x44#8)]

theorem witness_reader_wraps :
    Memory.wf memTop = true ∧
    { State.reset with mem := memTop }.readU64 0xFFFFFFFFFFFFF004#64 0x1FF#9 = .ok 0x8877665544332211#64 ∧
    { State.reset with mem := memTop, params := { Params.default with byteOrder := .big } }.readU64 0xFFFFFFFFFFFFF004#64 0x1FF#9 =
      .ok 0x1122334455667788#64 := by decide

/-- ReaderRefusesUnlistedSlots: a slot with its last byte unlisted, an unaligned slot and a wrapping slot that the reader does not
serve. -/
theorem witness_reader_refuses :
    Memory.readByte memL0 ((Params.default.slotSum 0x1001#64 0#9 + 7) % 2 ^ 64) = none ∧
    { State.reset with mem := memL0 }.readU64 0x1001#64 0#9 = .err ⟨0⟩ ∧
    { State.reset with mem := memTop, params := { Params.default with serveUnaligned := false } }.readU64 0xFFFFFFFFFFFFF004#64 0x1FF#9 =
      .err ⟨0⟩ ∧
    { State.reset with mem := memTop, params := { Params.default with serveWrapped := false } }.readU64 0xFFFFFFFFFFFFF004#64 0x1FF#9 =
      .err ⟨0⟩ := by decide

/-- StrayAnswersChangeNothing: both clauses; the late answer comes in WAIT of a later walk. -/
theorem witness_stray :
    ((mk wDone [.answer (.ok 1#64)]).turn = .answer (.ok 1#64) ∧ (mk wDone []).walker.fsm ≠ .wait) ∧
    (mk wWait0 [.lateAnswer (.ok 1#64)]).turn = .lateAnswer (.ok 1#64) := by decide

/-- WaitHangsWithoutAnAnswer: a hold turn, both conditions, and a schedule of holds and proceeds before an answer. -/
theorem witness_hang :
    (mk wWait0 [.hold, .answer (.ok 3#64)]).turn = .hold ∧
    (∀ u ∈ (mk wWait0 [.hold, .proceed, .answer (.ok 3#64)]).schedule.take 2, u = .proceed ∨ u = .hold) ∧
    ((mk wWait0 []).schedule = [] ∧ wWait0.fsm = .wait ∧ ({ Params.default with readerAttached := false } : Params).readerAttached = false) ∧
    (State.reset.schedule = [] ∧ State.reset.walker.fsm = .idle ∧ State.reset.ports.pending = []) := by decide

/-- NoOtherTransitions (an answer from memory and a request that is fetched are in `witness_fetch`), OnlyOtherAgentsChangeMemory, NoInstructionWritesMemory, InstancesShareNothing: steps that answer a next
state, and a step that is refused. -/
theorem witness_steps :
    nextIs (step (mk wWait3 [.answer (.ok 3#64)])) (fun _ => true) = true ∧
    nextIs (exec (.walk 0#64 0#64) State.reset) (fun _ => true) = true ∧
    (∀ k, (mk wWait3 [.answer (.ok 3#64)]).turn ≠ .select k) ∧
    refusedBy (step (mk Walker.reset [.operate .reader []])) (.undecodable (.wrongLength .reader 0)) = true := by
  refine ⟨by decide, by decide, ?_, by decide⟩
  intro k h
  cases h

/-- OnlyOtherAgentsChangeMemory: a turn that is neither a write nor an erase. -/
theorem witness_no_edit : (∀ a b, (mk wDone []).turn ≠ .agentWrite a b) ∧ (∀ a n, (mk wDone []).turn ≠ .agentErase a n) := by
  constructor <;> intro a b h <;> cases h

/-- ResetAbandonsTheWalk: in the middle of a walk. -/
theorem witness_reset : (mk wWait3 [.reset]).turn = .reset := by decide

/-- StepKeepsTheInvariant: the state of P1 after its third answer meets the invariant, and a step from it answers a next state. -/
def sWait3 : State :=
  { mk wWait3 [] with
    ports := { Ports.reset with sent := [⟨0x1000#64, 0#9⟩, ⟨0x2000#64, 0#9⟩, ⟨0x3000#64, 2#9⟩, ⟨0x4000#64, 1#9⟩] } }

theorem witness_inv : sWait3.Inv ∧ nextIs (step sWait3) (fun t => decide (t.walker.fsm = .done)) = true := by
  refine ⟨⟨by decide, ⟨by decide, by decide, by decide, by decide, ?_, ?_⟩, ?_⟩, by decide⟩
  · intro h
    exact absurd h (by decide)
  · show sWait3.ports.sent = _
    decide
  · exact fun t h => absurd h (List.not_mem_nil)

/-- EndedWalkMadeTheReadsOfItsTrace: from `sWait3` a step ends in Success (by the answer that its turn brings) and in Failure, from `sWait0`
in Stopped and in ReadFailure, and from reset ACCEPT ends in MalformedArgument. The hypotheses hold of each. -/
def sWait0 : State := { mk wWait0 [] with ports := { Ports.reset with sent := [⟨0x1000#64, 0#9⟩] } }

theorem witness_inv_first : sWait0.Inv := by
  refine ⟨by decide, ⟨by decide, by decide, by decide, by decide, ?_, ?_⟩, ?_⟩
  · intro h
    exact absurd h (by decide)
  · show sWait0.ports.sent = _
    decide
  · exact fun t h => absurd h (List.not_mem_nil)

theorem witness_inv_any_schedule (turns : List Turn) :
    ({ sWait3 with schedule := turns } : State).Inv ∧ ({ sWait0 with schedule := turns } : State).Inv :=
  ⟨witness_inv.1, witness_inv_first⟩

theorem witness_ends :
    nextIs (step { sWait3 with schedule := [.answer (.ok 0x00200000000500C3#64)] })
      (fun t => decide (t.walker.fsm = .done ∧ t.walker.result = .success 0x50000#64 p1Perms)) = true ∧
    nextIs (step { sWait3 with schedule := [.answer (.ok 0x2#64)] })
      (fun t => decide (t.walker.fsm = .done ∧ t.walker.result = .failure 3)) = true ∧
    nextIs (step { sWait0 with schedule := [.answer (.ok 0x1#64)] })
      (fun t => decide (t.walker.fsm = .done ∧ t.walker.result = .stopped 0)) = true ∧
    nextIs (step { sWait0 with schedule := [.answer (.err ⟨0⟩)] })
      (fun t => decide (t.walker.fsm = .done ∧ t.walker.result = .readFailure 0 0x1000#64 0#9 ⟨0⟩)) = true ∧
    nextIs (step { State.reset with params := rejectAll, schedule := [.operate .request (bytesLE 16 0)] })
      (fun t => decide (t.walker.fsm = .done ∧ t.walker.result = .malformedArgument)) = true := by decide

/-- The malformed request's start, and an ended walk of each result: states of the invariant. -/
theorem witness_inv_malformed (turns : List Turn) : ({ State.reset with params := rejectAll, schedule := turns } : State).Inv := by
  refine ⟨by show Memory.wf [] = true; decide, ⟨?_, ?_, ?_, ?_, ?_, trivial⟩, ?_⟩
  · show Walker.reset.countInv
    decide
  · show Walker.reset.baseInv
    decide
  · show Walker.reset.stepInv
    decide
  · show Walker.reset.chainInv
    decide
  · intro h
    exact absurd h (by show Walker.reset.fsm ≠ .done; decide)
  · exact fun t h => absurd h (List.not_mem_nil)

/-- WalkAgreesWithTheProcedureForAnyAnswers: P10's answers, from reset. -/
theorem witness_any_answers :
    (mk Walker.reset (answering [.ok 0x2003#64, .ok 0x3003#64, .ok 0x7003#64, .ok 0x00600000000900C3#64])).walker.fsm = .idle ∧
    (mk Walker.reset (answering [.ok 0x2003#64, .ok 0x3003#64, .ok 0x7003#64, .ok 0x00600000000900C3#64])).schedule =
      answering (Quad.toList ⟨.ok 0x2003#64, .ok 0x3003#64, .ok 0x7003#64, .ok 0x00600000000900C3#64⟩) ++ [] := by decide

/-- WalkDeliversTheProcedureOverFixedMemory, EveryWalkEnds, IdleRegistersCarryNothingOver. -/
theorem witness_runs :
    (State.reset.walker.fsm = .idle ∧ State.reset.schedule = [] ∧ State.reset.params.readerAttached = true) ∧
    ((mk wWait0 []).schedule = [] ∧ (mk wWait0 []).params.readerAttached = true ∧ (mk wWait0 []).walker.fsm ≠ .idle) ∧
    (({ wDone with fsm := .idle } : Walker).fsm = .idle ∧ nextIs (State.reset.run 1) (fun _ => true) = true) := by decide

/-- SelectChangesPlaces: an instance that is there and one that is not. -/
theorem witness_select :
    ({ mk wDone [.select 0] with others := [Ttw.reset] }).turn = .select 0 ∧
    ({ mk wDone [.select 0] with others := [Ttw.reset] }).others[0]? = some Ttw.reset ∧
    (mk wDone [.select 0]).turn = .select 0 ∧ (mk wDone [.select 0]).others[0]? = none := by decide

/-- AgentEditsChangeOnlyTheirBytes: a write and an erase that wrap at the top of the address space. -/
theorem witness_edits :
    Memory.wf memTop = true ∧ ([0xAA#8, 0xBB#8] : List Byte).length ≤ 2 ^ 64 ∧
    nextIs (step { mk wDone [.agentWrite 0xFFFFFFFFFFFFFFFF#64 [0xAA#8, 0xBB#8]] with mem := memTop })
      (fun t => decide (Memory.readByte t.mem (2 ^ 64 - 1) = some 0xAA#8 ∧ Memory.readByte t.mem 0 = some 0xBB#8 ∧
        Memory.readByte t.mem 1 = some 0x66#8)) = true ∧
    nextIs (step { mk wDone [.agentErase 0xFFFFFFFFFFFFFFFF#64 2] with mem := memTop })
      (fun t => decide (Memory.readByte t.mem (2 ^ 64 - 1) = none ∧ Memory.readByte t.mem 0 = none ∧
        Memory.readByte t.mem 1 = some 0x66#8)) = true := by decide

/-- TableEditIsSeenByLaterReads: P10's edit of slot (0x3000, 2). The slot is aligned and in range, and the reader serves the others too,
so each side of both hypotheses holds. -/
theorem witness_table_edit :
    (State.reset.params.serveUnaligned = true ∧ State.reset.params.serveWrapped = true ∧
      Params.default.slotSum 0x3000#64 2#9 % 8 = 0 ∧ Params.default.slotSum 0x3000#64 2#9 + 7 < 2 ^ 64) ∧
    (mk wWait0 [.agentWrite (Params.default.slotAddr 0x3000#64 2#9) (slotBytesOf .little 0x7003#64)]).turn =
      .agentWrite (Params.default.slotAddr 0x3000#64 2#9) (slotBytesOf State.reset.params.byteOrder 0x7003#64) ∧
    nextIs (step (mk wWait0 [.agentWrite (Params.default.slotAddr 0x3000#64 2#9) (slotBytesOf .little 0x7003#64)]))
      (fun t => decide (t.readU64 0x3000#64 2#9 = .ok 0x7003#64)) = true := by decide

/-- TableEditIsSeenByLaterReads, for a big-endian reader that serves neither unaligned nor wrapping slots: the last slot of the address
space (the last whose bytes do not wrap), which both hypotheses admit by the slot's address alone. -/
def strictParams : Params :=
  { Params.default with
    byteOrder := .big
    serveUnaligned := false
    serveWrapped := false }

theorem witness_table_edit_strict :
    (strictParams.slotSum 0xFFFFFFFFFFFFF000#64 0x1FF#9 % 8 = 0 ∧ strictParams.slotSum 0xFFFFFFFFFFFFF000#64 0x1FF#9 + 7 < 2 ^ 64) ∧
    nextIs (step { mk wWait0 [.agentWrite (strictParams.slotAddr 0xFFFFFFFFFFFFF000#64 0x1FF#9) (slotBytesOf .big 0x7003#64)] with
        params := strictParams })
      (fun t => decide (t.readU64 0xFFFFFFFFFFFFF000#64 0x1FF#9 = .ok 0x7003#64)) = true := by decide

/-- SlotStaysInItsTable and SlotAliasing: the last slot of the greatest table (R55), and P8's slot 0x1FFC by R51. -/
theorem witness_slots :
    (0x0000FFFFFFFFF000#64 : Word64).toNat % 4096 = 0 ∧ Params.default.slotAddr 0x0000FFFFFFFFF000#64 0x1FF#9 = 0x0000FFFFFFFFFFF8#64 ∧
    Params.default.slotAddr 0x1004#64 0x1FF#9 = 0x1FFC#64 ∧
    ((0x1000#64 : Word64).toNat % 4096 = 0 ∧ (0x2000#64 : Word64).toNat % 4096 = 0) ∧
    Params.default.overrideOf 0x0000FFFFFFFFF000#64 0x1FF#9 = none ∧
    ({ Params.default with slotOverrides := [⟨0x9000#64, 5#9, 0x1000#64⟩] } : Params).overrideOf 0x9000#64 5#9 = some 0x1000#64 := by decide

/-- CombinationalOperationsFrame, OnlyIllFormedTermsStop: an operation of each sub-block completes; an ill-formed term is refused. -/
theorem witness_combinational :
    (∀ tb va, (Instr.decompose 0#64) ≠ .walk tb va) ∧ (∀ tb ix, (Instr.decompose 0#64) ≠ .readU64 tb ix) ∧
    permissionEntry (.decompose 0#64) = none ∧
    refusedBy (exec (.permAp2 ⟨0x43#64, 3⟩) State.reset) (.rowMismatch "decode_permissions.ap2") = true := by
  refine ⟨?_, ?_, by decide, by decide⟩ <;> intro a b h <;> cases h

/-- DecodeOfEncode and EncodeOfDecode: the longest word. -/
theorem witness_encode :
    Instr.wf (.readU64 0xFFFFFFFFFFFFFFFF#64 0x1FF#9) = true ∧
    encode (.readU64 0xFFFFFFFFFFFFFFFF#64 0x1FF#9) = [0xFF#8, 0xFF#8, 0xFF#8, 0xFF#8, 0xFF#8, 0xFF#8, 0xFF#8, 0xFF#8, 0xFF#8, 0x01#8] ∧
    decodesTo (decode .reader [0xFF#8, 0xFF#8, 0xFF#8, 0xFF#8, 0xFF#8, 0xFF#8, 0xFF#8, 0xFF#8, 0xFF#8, 0x01#8])
      (.readU64 0xFFFFFFFFFFFFFFFF#64 0x1FF#9) = true := by decide

/-- StepRunsTheDecodedInstruction and FetchPresentsThePortsWord: a presented word that decodes, one that does not, the oldest request,
the outstanding read. -/
theorem witness_fetch :
    ((mk wDone [.operate .decomposer [1#8]]).fetch = some (.decomposer, [1#8]) ∧
      (decode .decomposer [1#8]).toOption = none ∧ (decode .decomposer (bytesLE 8 1)).toOption = some (.decompose 1#64)) ∧
    ({ State.reset with ports := { Ports.reset with pending := [(0x1000#64 : Word64) ++ (0x401000#64 : Word64)] } }.fetch.map Prod.fst =
      some .request) ∧
    ((mk wWait3 []).fetch.map Prod.fst = some .reader ∧ (mk wWait3 []).params.readerAttached = true) := by decide

end Sys2Proof.Tests
end

section
/-! PROOFS. The scope of the machine (spec/00_scope.md): what no instruction and no step touches, and the open parameters. -/

namespace Sys2Proof

/-! ### What is not TTW's own: memory and the parameters (R2, R7) -/

namespace Machine

/-- The frame of every instruction: what a meaning that answers a next state leaves as it was. -/
theorem exec_frame {i : Instr} {s t : State} (h : exec i s = .next t) :
    t.mem = s.mem ∧ t.params = s.params ∧ t.others = s.others ∧ t.schedule = s.schedule := by
  obtain (⟨d, rfl⟩ | ⟨c, rfl⟩ | ⟨p, rfl⟩ | ⟨l, rfl⟩) |
    ⟨tb, va, -, ⟨-, rfl⟩ | ⟨-, rfl⟩⟩ | ⟨tb, ix, -, ⟨-, -, -, rfl⟩ | ⟨-, rfl⟩⟩ := exec_cases i s t h
  case inr.inl.inl =>
    obtain ⟨hmem, hparams, hothers, hschedule, -⟩ := accept_frame s tb va
    exact ⟨hmem, hparams, hothers, hschedule⟩
  all_goals exact ⟨rfl, rfl, rfl, rfl⟩

@[simp] theorem issueRead_mem (s : State) : s.issueRead.mem = s.mem := rfl

@[simp] theorem issueRead_params (s : State) : s.issueRead.params = s.params := rfl

@[simp] theorem deliver_mem (s : State) : s.deliver.mem = s.mem := rfl

@[simp] theorem deliver_params (s : State) : s.deliver.params = s.params := rfl

/-- No turn changes the parameters, and none but another agent's write or erase changes memory. -/
theorem act_frame {s t : State} {u : Turn} (h : s.act u = .next t) :
    t.params = s.params ∧
    ((∀ a bytes, u ≠ .agentWrite a bytes) → (∀ a count, u ≠ .agentErase a count) → t.mem = s.mem) := by
  obtain rfl | ⟨-, -, rfl⟩ | ⟨-, -, rfl⟩ | ⟨r, -, -, rfl⟩ | ⟨a, bytes, rfl, rfl⟩ | ⟨a, count, rfl, rfl⟩ |
    ⟨k, o, -, -, rfl⟩ | ⟨-, rfl⟩ := act_cases s t u h
  case inr.inr.inr.inr.inl => exact ⟨State.agentWrite_params s a bytes, fun hw _ => absurd rfl (hw a bytes)⟩
  case inr.inr.inr.inr.inr.inl => exact ⟨State.agentErase_params s a count, fun _ he => absurd rfl (he a count)⟩
  all_goals simp

end Machine

open Machine

/-- Settles O43: each thing a meaning can have done leaves memory itself as it was, so every byte reads as before. -/
theorem noInstructionWritesMemory : Obligations.NoInstructionWritesMemory := by
  intro i s t h
  obtain ⟨hmem, hrest⟩ := exec_frame h
  exact ⟨fun a => by rw [hmem], hrest⟩

/-- Settles O44: a step is an instruction, which has the frame of O43, or a turn without a word, of which only the two edits store. -/
theorem onlyOtherAgentsChangeMemory : Obligations.OnlyOtherAgentsChangeMemory := by
  intro s t h
  obtain ⟨p, bs, i, -, -, hexec⟩ | ⟨-, hact⟩ := step_cases s t h
  · obtain ⟨hmem, hparams, -, -⟩ := exec_frame hexec
    exact ⟨hparams.trans (fetched_params s), fun _ _ => hmem.trans (fetched_mem s)⟩
  · simpa using act_frame hact

/-! ### The open parameters (R7) -/

/-- The widths that `ADDR_BITS` can have (log entry 29). -/
theorem addrBits_range (p : Params) : 48 ≤ p.addrBits ∧ p.addrBits ≤ 64 := by
  have := p.upperAddrBits.isLt
  simp only [Params.addrBits]
  omega

/-- With no other address given, the slot is where array indexing modulo 2^64 puts it (R51). -/
theorem slotAddr_array (p : Params) (tb : Word64) (ix : Index) (h : p.overrideOf tb ix = none) :
    p.slotAddr tb ix = tb + 8#64 * ix.setWidth 64 := by
  apply BitVec.eq_of_toNat_eq
  rw [slotAddr_toNat, slotSum_array p tb ix h]
  simp

/-- With no pattern, no request is malformed (R7's default, D14). -/
theorem isMalformed_of_no_pattern (p : Params) (tb va : Word64) (h : p.malformed = []) : isMalformed p tb va = false := by
  simp [isMalformed, h]

/-- Settles O59: the operand bit by bit and the range of its width, then each default from the lemma about its parameter. -/
theorem openParametersAndTheirDefaults : Obligations.OpenParametersAndTheirDefaults := by
  refine ⟨fun p tb i => ?_, rfl, fun tb => operandBase_full _ tb rfl,
    fun tb va => isMalformed_of_no_pattern _ tb va rfl,
    fun e e' => (element_single e).trans (element_single e').symm,
    fun tb ix => slotAddr_array _ tb ix rfl, rfl, rfl⟩
  obtain ⟨hlow, hhigh⟩ := addrBits_range p
  exact ⟨hlow, hhigh, operandBase_bit p tb i⟩

end Sys2Proof
end

section
/-! PROOFS. The state (spec/10_state.md): the invariant of R39 with R164 and R166 at reset and over every step, what a request changes,
what an idle walker carries over (nothing), what a turn fetches and runs, and the numeric codes. -/

namespace Sys2Proof

namespace Machine

/-! ### The trace after an answer Ok (R159) -/

/-- The slots of the trace below the level: those that an answer keeps and counts. -/
def Walker.stepsBelow (w : Walker) : List WalkStep := w.trace.toList.take w.level.val

/-- Up to a level's slot, the register with that slot written holds what it held below it, then the slot. -/
theorem quad_set_take {α : Type} (q : Quad α) (l : Level) (x : α) :
    (q.set l x).toList.take (l.val + 1) = q.toList.take l.val ++ [x] := by
  match l with
  | 0 => rfl
  | 1 => rfl
  | 2 => rfl
  | 3 => rfl

/-- A Table is classified below level 3 only (R125). -/
theorem level_lt_of_table {v oa : Word64} {l : Level} (h : classify v l = .table oa) : l < 3 := by
  rcases classify_cases v l with ⟨-, hc⟩ | ⟨hl, -⟩ | ⟨hl, -⟩ | ⟨-, -, hc⟩
  case inr.inl => exact hl
  case inr.inr.inl => exact hl
  all_goals simp [hc] at h

/-- Below level 3 the next level does not wrap (R163). -/
theorem level_succ_val {l : Level} (h : l < 3) : (l + 1).val = l.val + 1 :=
  Fin.val_add_one_of_lt (lt_of_lt_of_le h (Fin.le_last 3))

theorem appendStep_traceLen_toNat (w : Walker) (st : WalkStep) :
    (w.appendStep st).traceLen.toNat = w.level.val + 1 := by
  have := w.level.isLt
  simp only [Walker.appendStep_traceLen, BitVec.toNat_ofNat]
  omega

theorem appendStep_steps (w : Walker) (st : WalkStep) : (w.appendStep st).steps = w.stepsBelow ++ [st] := by
  rw [Walker.steps, appendStep_traceLen_toNat]
  exact quad_set_take w.trace w.level st

/-- Following a Table keeps the steps below the level, and the level's own. -/
theorem stepsBelow_follow (w : Walker) (st : WalkStep) (oa : Word64) (h : w.level < 3) :
    ((w.appendStep st).follow oa).stepsBelow = w.stepsBelow ++ [st] := by
  simp only [Walker.stepsBelow, Walker.follow_trace, Walker.follow_level, Walker.appendStep_trace,
    Walker.appendStep_level, level_succ_val h]
  exact quad_set_take w.trace w.level st

theorem steps_of_no_traceLen {w : Walker} (h : w.traceLen = 0#3) : w.steps = [] := by
  simp [Walker.steps, h]

theorem not_running_of_idle {w : Walker} (h : w.fsm = .idle) : ¬ w.running := by simp [Walker.running, h]

theorem not_running_of_done {w : Walker} (h : w.fsm = .done) : ¬ w.running := by simp [Walker.running, h]

/-! ### The invariant of one walker (R39, R164, R166) -/

/-- Of the ports, the invariant looks at the reads sent only. -/
theorem instanceInv_of_sent_eq {w : Walker} {p q : Ports} (h : q.sent = p.sent) (hinv : instanceInv w p) :
    instanceInv w q := by
  obtain ⟨hcount, hbase, hstep, hchain, hresult, hsent⟩ := hinv
  exact ⟨hcount, hbase, hstep, hchain, hresult, by simpa only [sentAgrees, h] using hsent⟩

/-- With an empty trace, at level 0 where a walk is in progress, only the reads and the result are left to agree. -/
theorem instanceInv_of_no_steps {w : Walker} {p : Ports} (hlen : w.traceLen = 0#3) (hlevel : w.running → w.level = 0)
    (hresult : w.fsm = .done → w.resultAgrees) (hsent : sentAgrees w p) : instanceInv w p := by
  have hzero : w.traceLen.toNat = 0 := by rw [hlen]; rfl
  refine ⟨⟨by omega, fun hrun => by rw [hzero, hlevel hrun]; rfl⟩, fun i hrun hi => ?_, fun i hi => ?_, fun i j _ hj => ?_,
    hresult, hsent⟩
  · rw [hlevel hrun] at hi
    exact absurd hi (Nat.succ_ne_zero i.val).symm
  · exact absurd hi (by omega)
  · exact absurd hj (by omega)

theorem instanceInv_reset (p : Ports) : instanceInv Walker.reset p :=
  instanceInv_of_no_steps rfl (fun _ => rfl) (fun h => nomatch h) trivial

/-- ACCEPT of a request that is not malformed (R157). -/
theorem instanceInv_start (w : Walker) {p : Ports} (tb va : Word64) (hp : p.sent = []) :
    instanceInv (w.start tb va) p := by
  refine instanceInv_of_no_steps rfl (fun _ => rfl) (fun h => nomatch h) ?_
  show p.sent = (w.start tb va).stepSlots
  rw [hp, Walker.stepSlots, steps_of_no_traceLen rfl, List.map_nil]

/-- ACCEPT of a malformed request (R157, R195). -/
theorem instanceInv_reject (w : Walker) {p : Ports} (hp : p.sent = []) : instanceInv w.reject p := by
  refine instanceInv_of_no_steps rfl (fun h => nomatch h) (fun _ => rfl) ?_
  show p.sent = w.reject.stepSlots ++ []
  rw [hp, Walker.stepSlots, steps_of_no_traceLen rfl, List.map_nil, List.append_nil]

/-- ISSUE (R158): the read is recorded and outstanding. -/
theorem instanceInv_issue {w : Walker} {p q : Ports} (hw : w.fsm = .issue)
    (hq : q.sent = p.sent ++ [{ tableBase := w.curTable, index := w.curIndex }]) (hinv : instanceInv w p) :
    instanceInv { w with fsm := .wait } q := by
  obtain ⟨⟨hle, hlen⟩, hbase, hstep, hchain, -, hsent⟩ := hinv
  have hsent : p.sent = w.stepSlots := by simpa only [sentAgrees, hw] using hsent
  refine ⟨⟨hle, fun _ => hlen (.inl hw)⟩, fun i _ => hbase i (.inl hw), hstep, hchain, fun h => (nomatch h), ?_⟩
  show q.sent = w.stepSlots ++ _
  rw [hq, hsent]
  rfl

/-- DELIVER (R161). -/
theorem instanceInv_release {w : Walker} {p : Ports} (hinv : instanceInv w p) : instanceInv w.release p := by
  obtain ⟨⟨hle, -⟩, -, hstep, hchain, -, -⟩ := hinv
  have hidle := not_running_of_idle (Walker.release_fsm w)
  exact ⟨⟨hle, fun h => absurd h hidle⟩, fun _ h => absurd h hidle, hstep, hchain, fun h => (nomatch h), trivial⟩

/-! ### The invariant under an answer (R159, R160) -/

/-- A slot that counts after an answer Ok is the level's own, or counted before. -/
theorem counts_appendStep {w : Walker} {st : WalkStep} {i : Level} (hcount : w.countInv) (hrun : w.running)
    (hi : (w.appendStep st).counts i) : i = w.level ∨ (i ≠ w.level ∧ w.counts i) := by
  have hlen := hcount.2 hrun
  rw [Walker.counts, appendStep_traceLen_toNat] at hi
  by_cases h : i = w.level
  · exact .inl h
  · have : i.val ≠ w.level.val := fun hv => h (Fin.ext hv)
    exact .inr ⟨h, by rw [Walker.counts, hlen]; omega⟩

theorem stepInv_appendStep {w : Walker} (v : Word64) (hcount : w.countInv) (hrun : w.running) (hstep : w.stepInv) :
    (w.appendStep (w.stepFor v)).stepInv := by
  intro i hi
  rcases counts_appendStep hcount hrun hi with rfl | ⟨hne, hold⟩
  · simp [Walker.stepFor, Walker.curIndex]
  · simpa [quad_get_set_other _ _ _ _ hne] using hstep i hold

theorem chainInv_appendStep {w : Walker} (v : Word64) (hcount : w.countInv) (hrun : w.running) (hbase : w.baseInv)
    (hchain : w.chainInv) : (w.appendStep (w.stepFor v)).chainInv := by
  intro i j hij hj
  have hi : i ≠ w.level := by
    rintro rfl
    rw [Walker.counts, appendStep_traceLen_toNat] at hj
    omega
  rcases counts_appendStep hcount hrun hj with rfl | ⟨hne, hold⟩
  · obtain ⟨-, hcur, hkind⟩ := hbase i hrun hij
    simpa [quad_get_set_other _ _ _ _ hi, Walker.stepFor] using And.intro hkind hcur
  · simpa [quad_get_set_other _ _ _ _ hi, quad_get_set_other _ _ _ _ hne] using hchain i j hij hold

/-- The step of an answer Ok brings the outstanding read's slot. -/
theorem stepSlots_appendStep {w : Walker} (v : Word64) (hcount : w.countInv) (hrun : w.running) :
    (w.appendStep (w.stepFor v)).stepSlots = w.stepSlots ++ [{ tableBase := w.curTable, index := w.curIndex }] := by
  have hsteps : w.steps = w.stepsBelow := by rw [Walker.steps, hcount.2 hrun, Walker.stepsBelow]
  simp [Walker.stepSlots, appendStep_steps, hsteps, Walker.stepFor]

theorem sent_of_wait {w : Walker} {p : Ports} (hw : w.fsm = .wait) (hinv : instanceInv w p) :
    p.sent = w.stepSlots ++ [{ tableBase := w.curTable, index := w.curIndex }] := by
  obtain ⟨-, -, -, -, -, hsent⟩ := hinv
  simpa only [sentAgrees, hw] using hsent

/-- ANSWER-ERR (R160): the failed read is the outstanding one. -/
theorem instanceInv_answerErr {w : Walker} {p : Ports} (e : ReadError) (hw : w.fsm = .wait) (hinv : instanceInv w p) :
    instanceInv (w.endWalk (.readFailure w.level w.curTable w.curIndex e)) p := by
  have hsent := sent_of_wait hw hinv
  have hended := not_running_of_done (Walker.endWalk_fsm w (.readFailure w.level w.curTable w.curIndex e))
  obtain ⟨⟨hle, hlen⟩, hbase, hstep, hchain, -, -⟩ := hinv
  refine ⟨⟨hle, fun h => absurd h hended⟩, fun _ h => absurd h hended, hstep, hchain,
    fun _ => ⟨hlen (.inr hw), rfl, fun i hi => ?_⟩, hsent⟩
  · obtain ⟨-, hcur, hkind⟩ := hbase i (.inr hw) hi
    exact ⟨hkind, hcur⟩

/-- ANSWER-OK that ends the walk (R159) with a result that agrees with the trace and names no failed read. -/
theorem instanceInv_appendStep_endWalk {w : Walker} {p : Ports} {v : Word64} {outcome : WalkResult} (hw : w.fsm = .wait)
    (hinv : instanceInv w p) (hresult : ((w.appendStep (w.stepFor v)).endWalk outcome).resultAgrees)
    (hfailed : outcome.failedRead = []) : instanceInv ((w.appendStep (w.stepFor v)).endWalk outcome) p := by
  have hsent := sent_of_wait hw hinv
  have hended := not_running_of_done (Walker.endWalk_fsm (w.appendStep (w.stepFor v)) outcome)
  obtain ⟨hcount, hbase, hstep, hchain, -, -⟩ := hinv
  have hrun : w.running := .inr hw
  refine ⟨⟨?_, fun h => absurd h hended⟩, fun _ h => absurd h hended, stepInv_appendStep v hcount hrun hstep,
    chainInv_appendStep v hcount hrun hbase hchain, fun _ => hresult, ?_⟩
  · exact (appendStep_traceLen_toNat w (w.stepFor v)).trans_le w.level.isLt
  · show p.sent = (w.appendStep (w.stepFor v)).stepSlots ++ outcome.failedRead
    rw [hfailed, List.append_nil, stepSlots_appendStep v hcount hrun, hsent]

/-- ANSWER-OK with a Table (R159, R155): below level 3 the level rises by one and the base is the entry's output address. -/
theorem instanceInv_follow {w : Walker} {p : Ports} {v : Word64} (hw : w.fsm = .wait) (hinv : instanceInv w p)
    (hclass : classify v w.level = .table (outputAddress v)) :
    instanceInv ((w.appendStep (w.stepFor v)).follow (outputAddress v)) p := by
  have hsent := sent_of_wait hw hinv
  obtain ⟨hcount, hbase, hstep, hchain, -, -⟩ := hinv
  have hrun : w.running := .inr hw
  have hlen := appendStep_traceLen_toNat w (w.stepFor v)
  have hlevel := level_succ_val (level_lt_of_table hclass)
  refine ⟨⟨?_, fun _ => ?_⟩, fun i _ hi => ?_, stepInv_appendStep v hcount hrun hstep,
    chainInv_appendStep v hcount hrun hbase hchain, fun h => (nomatch h), ?_⟩
  · exact hlen.trans_le w.level.isLt
  · exact hlen.trans hlevel.symm
  · have hi : i = w.level := by
      have hval : (w.level + 1).val = i.val + 1 := hi
      exact Fin.ext (by omega)
    subst hi
    refine ⟨outputAddress_outside v, ?_, ?_⟩ <;> simp [Walker.stepFor, hclass, Classified.kind, outputAddress]
  · show p.sent = (w.appendStep (w.stepFor v)).stepSlots
    rw [stepSlots_appendStep v hcount hrun, hsent]

/-- Any answer to the outstanding read keeps the invariant: one case for each thing it can do. -/
theorem instanceInv_answered {w : Walker} {p : Ports} (r : ReadResult) (hw : w.fsm = .wait) (hinv : instanceInv w p) :
    instanceInv (w.answered r) p := by
  obtain ⟨e, -, h⟩ | ⟨v, -, -, hc, h⟩ | ⟨v, -, hl, -, -, hc, h⟩ | ⟨v, -, -, -, -, hc, h⟩ | ⟨v, -, hl, -, hc, h⟩ :=
    answered_cases w r <;> rw [h]
  · exact instanceInv_answerErr e hw hinv
  · refine instanceInv_appendStep_endWalk hw hinv ⟨appendStep_traceLen_toNat w (w.stepFor v), ?_⟩ rfl
    simp [Walker.stepFor, hc, Classified.kind]
  · refine instanceInv_appendStep_endWalk hw hinv ⟨appendStep_traceLen_toNat w (w.stepFor v), Nat.le_of_lt_succ hl, ?_⟩ rfl
    simp [Walker.stepFor, hc, Classified.kind]
  · exact instanceInv_follow hw hinv hc
  · refine instanceInv_appendStep_endWalk hw hinv ?_ rfl
    have hslot : (w.appendStep (w.stepFor v)).trace.get 3 = w.stepFor v := by rw [← hl]; simp
    simp only [Walker.resultAgrees, Walker.endWalk_result, Walker.endWalk_trace, Walker.endWalk_traceLen, hslot]
    rw [hl] at hc
    simp [Walker.stepFor, hl, hc, Classified.kind, outputAddress]

/-! ### The invariant of the machine -/

/-- The invariant of a state with the memory and the other walkers of one that meets it. -/
theorem inv_of_walker {s t : State} (h : s.Inv) (hmem : t.mem = s.mem) (hothers : t.others = s.others)
    (hwalker : instanceInv t.walker t.ports) : t.Inv := by
  obtain ⟨hwf, -, hrest⟩ := h
  exact ⟨by rw [hmem]; exact hwf, hwalker, by rw [hothers]; exact hrest⟩

theorem inv_walker {s : State} (h : s.Inv) : instanceInv s.walker s.ports := by
  obtain ⟨-, hwalker, -⟩ := h
  exact hwalker

/-- The invariant of a state with a memory in canonical form in the place of its own. -/
theorem inv_of_mem {s t : State} (h : s.Inv) (hmem : Memory.wf t.mem = true) (ht : t = { s with mem := t.mem }) : t.Inv := by
  obtain ⟨-, hwalker, hrest⟩ := h
  rw [ht]
  exact ⟨hmem, hwalker, hrest⟩

theorem inv_reset : State.reset.Inv :=
  ⟨wf_reset, instanceInv_reset _, fun _ ht => absurd ht List.not_mem_nil⟩

theorem inv_fetched {s : State} (h : s.Inv) : s.fetched.Inv :=
  inv_of_walker h (fetched_mem s) (fetched_others s)
    (by rw [fetched_walker]; exact instanceInv_of_sent_eq (fetched_sent s) (inv_walker h))

theorem inv_accept {s : State} (tb va : Word64) (h : s.Inv) : (s.accept tb va).Inv := by
  cases hm : isMalformed s.params tb va with
  | true =>
    rw [accept_malformed s tb va hm]
    exact inv_of_walker h rfl rfl (instanceInv_reject _ rfl)
  | false =>
    rw [accept_wellformed s tb va hm]
    exact inv_of_walker h rfl rfl (instanceInv_start _ _ _ rfl)

theorem inv_answered {s : State} (r : ReadResult) (hw : s.walker.fsm = .wait) (h : s.Inv) :
    ((s.driveReader r).withWalker (s.walker.answered r)).Inv :=
  inv_of_walker h rfl rfl (instanceInv_of_sent_eq (by simp) (instanceInv_answered r hw (inv_walker h)))

/-- Instances that change places keep their invariants (R211). -/
theorem inv_selectWalker {s : State} {k : Nat} {o : Ttw} (ho : s.others[k]? = some o) (h : s.Inv) :
    (s.selectWalker k o).Inv := by
  obtain ⟨hwf, hwalker, hrest⟩ := h
  refine ⟨hwf, hrest o (List.mem_of_getElem? ho), fun t ht => ?_⟩
  rcases List.mem_or_eq_of_mem_set ht with hold | rfl
  · exact hrest t hold
  · exact hwalker

/-- An instruction keeps the invariant. -/
theorem inv_exec {i : Instr} {s t : State} (hexec : exec i s = .next t) (h : s.Inv) : t.Inv := by
  have hsame := inv_walker h
  obtain (⟨d, rfl⟩ | ⟨c, rfl⟩ | ⟨p, rfl⟩ | ⟨l, rfl⟩) |
    ⟨tb, va, -, ⟨-, rfl⟩ | ⟨-, rfl⟩⟩ | ⟨tb, ix, -, ⟨hw, -, -, rfl⟩ | ⟨-, rfl⟩⟩ := exec_cases i s t hexec
  case inr.inl.inl => exact inv_accept tb va h
  case inr.inr.inl => exact inv_answered _ hw h
  all_goals exact inv_of_walker h rfl rfl (instanceInv_of_sent_eq (by simp) hsame)

/-- A turn that presents no word keeps the invariant. -/
theorem inv_act {s t : State} {u : Turn} (hact : s.act u = .next t) (h : s.Inv) : t.Inv := by
  have hwf : Memory.wf s.mem = true := And.left h
  obtain rfl | ⟨-, hf, rfl⟩ | ⟨-, -, rfl⟩ | ⟨r, -, hw, rfl⟩ | ⟨a, bytes, -, rfl⟩ | ⟨a, count, -, rfl⟩ |
    ⟨k, o, -, ho, rfl⟩ | ⟨-, rfl⟩ := act_cases s t u hact
  · exact h
  · exact inv_of_walker h rfl rfl (instanceInv_issue hf rfl (inv_walker h))
  · exact inv_of_walker h rfl rfl (instanceInv_of_sent_eq rfl (instanceInv_release (inv_walker h)))
  · exact inv_answered _ hw h
  · exact inv_of_mem h (wf_writeBytes s.mem a bytes hwf) rfl
  · exact inv_of_mem h (wf_eraseBytes s.mem a count hwf) rfl
  · exact inv_selectWalker ho h
  · exact inv_of_walker h rfl rfl (instanceInv_reset _)

end Machine

open Machine

/-- Settles O34: the reset registers count no step and are idle, and nothing is listed in memory. -/
theorem invariantHoldsAtReset : Obligations.InvariantHoldsAtReset := inv_reset

/-- Settles O35: a step is an instruction on the state with the turn used up, or a turn without a word, and each keeps the invariant. -/
theorem stepKeepsTheInvariant : Obligations.StepKeepsTheInvariant := by
  intro s t h hstep
  obtain ⟨p, bs, i, -, -, hexec⟩ | ⟨-, hact⟩ := step_cases s t hstep
  · exact inv_exec hexec (inv_fetched h)
  · exact inv_act hact h

namespace Machine

/-! ### What of the registers reaches anything later (R28) -/

/-- Two walkers are alike if they are in the same state of R21 and agree on what that state still uses: nothing in IDLE, the response in
DONE, and in ISSUE and WAIT the walk's operands with the trace so far. -/
structure Walker.Alike (w w' : Walker) : Prop where
  fsm : w'.fsm = w.fsm
  running : w.running → w'.idx = w.idx ∧ w'.curTable = w.curTable ∧ w'.level = w.level ∧
    w'.stepsBelow = w.stepsBelow ∧ w'.steps = w.steps
  ended : w.fsm = .done → w'.response = w.response

theorem Walker.Alike.refl (w : Walker) : w.Alike w := ⟨rfl, fun _ => ⟨rfl, rfl, rfl, rfl, rfl⟩, fun _ => rfl⟩

theorem alike_of_idle {w w' : Walker} (hw : w.fsm = .idle) (hw' : w'.fsm = .idle) : w.Alike w' :=
  ⟨hw'.trans hw.symm, fun h => absurd h (not_running_of_idle hw), fun h => by simp [hw] at h⟩

theorem alike_of_done {w w' : Walker} (hw : w.fsm = .done) (hw' : w'.fsm = .done) (hresult : w'.result = w.result)
    (hsteps : w'.steps = w.steps) : w.Alike w' :=
  ⟨hw'.trans hw.symm, fun h => absurd h (not_running_of_done hw), fun _ => by simp [Walker.response, hresult, hsteps]⟩

/-- ACCEPT writes everything that the walk it starts uses. -/
theorem alike_start (w w' : Walker) (tb va : Word64) : (w.start tb va).Alike (w'.start tb va) :=
  ⟨rfl, fun _ => ⟨rfl, rfl, rfl, rfl, (steps_of_no_traceLen rfl).trans (steps_of_no_traceLen rfl).symm⟩, fun h => (nomatch h)⟩

theorem alike_reject (w w' : Walker) : w.reject.Alike w'.reject :=
  alike_of_done rfl rfl rfl ((steps_of_no_traceLen rfl).trans (steps_of_no_traceLen rfl).symm)

theorem alike_issue {w w' : Walker} (h : w.Alike w') (hw : w.fsm = .issue) :
    ({ w with fsm := .wait } : Walker).Alike { w' with fsm := .wait } :=
  ⟨rfl, fun _ => h.running (.inl hw), fun h => (nomatch h)⟩

/-- Alike walkers read the same slot. -/
theorem Walker.Alike.curIndex {w w' : Walker} (h : w.Alike w') (hrun : w.running) : w'.curIndex = w.curIndex := by
  obtain ⟨hidx, -, hlevel, -, -⟩ := h.running hrun
  rw [Walker.curIndex, Walker.curIndex, hidx, hlevel]

theorem Walker.Alike.outstanding {w w' : Walker} (h : w.Alike w') : w'.outstanding = w.outstanding := by
  by_cases hw : w.fsm = .wait
  · obtain ⟨-, hcur, -⟩ := h.running (.inr hw)
    rw [outstanding_wait w hw, outstanding_wait w' (h.fsm.trans hw), hcur, h.curIndex (.inr hw)]
  · rw [outstanding_none w hw, outstanding_none w' (h.fsm ▸ hw)]

theorem Walker.Alike.awaits {w w' : Walker} (h : w.Alike w') (tb : Word64) (ix : Index) :
    w'.awaits tb ix = w.awaits tb ix := by
  rw [Walker.awaits, Walker.awaits, h.outstanding]

/-- The same answer leaves alike walkers alike. -/
theorem alike_answered {w w' : Walker} (h : w.Alike w') (hw : w.fsm = .wait) (r : ReadResult) :
    (w.answered r).Alike (w'.answered r) := by
  obtain ⟨hidx, hcur, hlevel, hbelow, hsteps⟩ := h.running (.inr hw)
  have hindex := h.curIndex (.inr hw)
  cases r with
  | err e =>
    exact alike_of_done rfl rfl (by simp [Walker.answered, hcur, hlevel, hindex]) hsteps
  | ok v =>
    have hstep : w'.stepFor v = w.stepFor v := by simp only [Walker.stepFor, hcur, hlevel, hindex]
    have happend : (w'.appendStep (w'.stepFor v)).steps = (w.appendStep (w.stepFor v)).steps := by
      rw [appendStep_steps, appendStep_steps, hbelow, hstep]
    simp only [Walker.answered, Walker.answerOk, hlevel]
    cases hc : classify v w.level with
    | invalid => exact alike_of_done rfl rfl rfl happend
    | block => exact alike_of_done rfl rfl rfl happend
    | page oa => exact alike_of_done rfl rfl rfl happend
    | table oa =>
      have hlt := level_lt_of_table hc
      refine ⟨rfl, fun _ => ⟨hidx, rfl, congrArg (· + 1) hlevel, ?_, happend⟩, fun h => (nomatch h)⟩
      rw [stepsBelow_follow w' _ oa (hlevel ▸ hlt), stepsBelow_follow w _ oa hlt, hbelow, hstep]

/-! ### Alike machines (R28, R211) -/

def Ttw.Alike (t t' : Ttw) : Prop := t.walker.Alike t'.walker ∧ t'.ports = t.ports

/-- The state with the current walker's registers, and the other walkers, replaced. -/
def State.withInstances (s : State) (w : Walker) (os : List Ttw) : State := { s with walker := w, others := os }

@[simp] theorem withInstances_walker (s : State) (w : Walker) (os : List Ttw) : (s.withInstances w os).walker = w := rfl

@[simp] theorem withInstances_ports (s : State) (w : Walker) (os : List Ttw) :
    (s.withInstances w os).ports = s.ports := rfl

@[simp] theorem withInstances_others (s : State) (w : Walker) (os : List Ttw) : (s.withInstances w os).others = os := rfl

@[simp] theorem withInstances_params (s : State) (w : Walker) (os : List Ttw) :
    (s.withInstances w os).params = s.params := rfl

@[simp] theorem withInstances_turn (s : State) (w : Walker) (os : List Ttw) : (s.withInstances w os).turn = s.turn := rfl

@[simp] theorem withInstances_readU64 (s : State) (w : Walker) (os : List Ttw) (tb : Word64) (ix : Index) :
    (s.withInstances w os).readU64 tb ix = s.readU64 tb ix := rfl

/-- Two machines with alike walkers, the same ports and everything else the same. -/
def State.Alike (s s' : State) : Prop :=
  ∃ w os, s' = s.withInstances w os ∧ s.walker.Alike w ∧ List.Forall₂ Ttw.Alike s.others os

theorem alike_afterTurn {s s' : State} (h : s.Alike s') : s.afterTurn.Alike s'.afterTurn := by
  obtain ⟨w, os, rfl, hw, hos⟩ := h
  exact ⟨w, os, rfl, hw, hos⟩

theorem alike_fetched {s s' : State} (h : s.Alike s') : s.fetched.Alike s'.fetched := by
  obtain ⟨w, os, rfl, hw, hos⟩ := h
  refine ⟨w, os, ?_, by rwa [fetched_walker], by rwa [fetched_others]⟩
  rw [fetched_eq, fetched_eq, withInstances_walker, withInstances_turn, hw.fsm]
  rfl

/-- Alike machines present the same word. -/
theorem alike_fetch {s s' : State} (h : s.Alike s') : s'.fetch = s.fetch := by
  obtain ⟨w, os, rfl, hw, -⟩ := h
  simp only [State.fetch, withInstances_turn, withInstances_walker, withInstances_ports, withInstances_params, hw.fsm,
    hw.outstanding]

theorem alike_accept {s s' : State} (h : s.Alike s') (tb va : Word64) : (s.accept tb va).Alike (s'.accept tb va) := by
  obtain ⟨w, os, rfl, -, hos⟩ := h
  cases hm : isMalformed s.params tb va with
  | true =>
    rw [accept_malformed s tb va hm, accept_malformed (s.withInstances w os) tb va hm]
    exact ⟨w.reject, os, rfl, alike_reject _ _, hos⟩
  | false =>
    rw [accept_wellformed s tb va hm, accept_wellformed (s.withInstances w os) tb va hm]
    exact ⟨w.start (s.params.operandBase tb) va, os, rfl, alike_start _ _ _ _, hos⟩

theorem alike_takeAnswer {s s' : State} (h : s.Alike s') (r : ReadResult) : (s.takeAnswer r).Alike (s'.takeAnswer r) := by
  obtain ⟨w, os, rfl, hw, hos⟩ := h
  by_cases hf : s.walker.fsm = .wait
  · rw [takeAnswer_wait s r hf, takeAnswer_wait (s.withInstances w os) r (hw.fsm.trans hf)]
    exact ⟨w.answered r, os, rfl, alike_answered hw hf r, hos⟩
  · rw [takeAnswer_other s r hf, takeAnswer_other (s.withInstances w os) r (hw.fsm ▸ hf)]
    exact ⟨w, os, rfl, hw, hos⟩

/-! ### Instructions of alike machines -/

/-- A guarded meaning that answers a next state answers one wherever its guard's branch does. -/
theorem next_of_guarded {c : Prop} [Decidable c] {o o' : Host.Outcome State Fault Refusal} {r : Refusal} {t t' : State}
    (h : (if c then o else .refused r) = .next t) (ho : o = .next t → o' = .next t') :
    (if c then o' else .refused r) = .next t' := by
  by_cases hc : c
  · rw [if_pos hc] at h ⊢
    exact ho h
  · rw [if_neg hc] at h
    exact nomatch h

theorem presentLines_withInstances {entry : AssertedEntry} {l : PermLines} {s t : State} (w : Walker) (os : List Ttw)
    (h : presentLines entry l s = .next t) :
    presentLines entry l (s.withInstances w os) = .next (t.withInstances w os) :=
  next_of_guarded h (fun h => by cases h; rfl)

/-- The combinational operations neither read nor write a register (R113, R127, R143). -/
theorem exec_combinational_withInstances {i : Instr} {s t : State} (hwalk : ∀ tb va, i ≠ .walk tb va)
    (hread : ∀ tb ix, i ≠ .readU64 tb ix) (h : exec i s = .next t) (w : Walker) (os : List Ttw) :
    exec i (s.withInstances w os) = .next (t.withInstances w os) := by
  cases i with
  | decompose va => cases h; rfl
  | classifyInvalid entry level => exact next_of_guarded h (fun h => by cases h; rfl)
  | classifyBlock entry level => exact next_of_guarded h (fun h => by cases h; rfl)
  | classifyTable entry level => exact next_of_guarded h (fun h => by cases h; rfl)
  | classifyPage entry level => exact next_of_guarded h (fun h => by cases h; rfl)
  | decodePermissions entry level => exact next_of_guarded h (fun h => by cases h; rfl)
  | permUxnClear entry => exact presentLines_withInstances w os h
  | permPxnClear entry => exact presentLines_withInstances w os h
  | permAp0 entry => exact next_of_guarded h (presentLines_withInstances w os)
  | permAp1 entry => exact next_of_guarded h (presentLines_withInstances w os)
  | permAp2 entry => exact next_of_guarded h (presentLines_withInstances w os)
  | permAp3 entry => exact next_of_guarded h (presentLines_withInstances w os)
  | walk tb va => exact absurd rfl (hwalk tb va)
  | readU64 tb ix => exact absurd rfl (hread tb ix)

theorem exec_combinational_walker {i : Instr} {s t : State} (hwalk : ∀ tb va, i ≠ .walk tb va)
    (hread : ∀ tb ix, i ≠ .readU64 tb ix) (h : exec i s = .next t) : t.walker = s.walker := by
  obtain (⟨d, rfl⟩ | ⟨c, rfl⟩ | ⟨p, rfl⟩ | ⟨l, rfl⟩) | ⟨tb, va, hi, -⟩ | ⟨tb, ix, hi, -⟩ := exec_cases i s t h
  case inr.inl => exact absurd hi (hwalk tb va)
  case inr.inr => exact absurd hi (hread tb ix)
  all_goals rfl

theorem exec_walk_alike {s s' t : State} (tb va : Word64) (hs : s.Alike s') (h : exec (.walk tb va) s = .next t) :
    ∃ t', exec (.walk tb va) s' = .next t' ∧ t.Alike t' := by
  have haccept := alike_accept hs tb va
  obtain ⟨w, os, rfl, hw, hos⟩ := hs
  by_cases hf : s.walker.fsm = .idle
  · rw [exec_walk_idle tb va s hf] at h
    cases h
    exact ⟨_, exec_walk_idle tb va _ (hw.fsm.trans hf), haccept⟩
  · rw [exec_walk_busy tb va s hf] at h
    cases h
    exact ⟨_, exec_walk_busy tb va (s.withInstances w os) (hw.fsm ▸ hf), w, os, rfl, hw, hos⟩

theorem exec_readU64_alike {s s' t : State} (tb : Word64) (ix : Index) (hs : s.Alike s')
    (h : exec (.readU64 tb ix) s = .next t) : ∃ t', exec (.readU64 tb ix) s' = .next t' ∧ t.Alike t' := by
  obtain ⟨w, os, rfl, hw, hos⟩ := hs
  have hawaits : (s.withInstances w os).walker.awaits tb ix = s.walker.awaits tb ix := hw.awaits tb ix
  cases ha : s.walker.awaits tb ix with
  | true =>
    rw [exec_readU64_awaited tb ix s ha] at h
    cases h
    exact ⟨_, exec_readU64_awaited tb ix _ (hawaits.trans ha), w.answered (s.readU64 tb ix), os, rfl,
      alike_answered hw ((awaits_iff _ _ _).1 ha).1 _, hos⟩
  | false =>
    rw [exec_readU64_other tb ix s ha] at h
    cases h
    exact ⟨_, exec_readU64_other tb ix _ (hawaits.trans ha), w, os, rfl, hw, hos⟩

/-- The same instruction leaves alike machines alike. -/
theorem exec_alike {i : Instr} {s s' t : State} (hs : s.Alike s') (h : exec i s = .next t) :
    ∃ t', exec i s' = .next t' ∧ t.Alike t' := by
  by_cases hwalk : ∃ tb va, i = .walk tb va
  · obtain ⟨tb, va, rfl⟩ := hwalk
    exact exec_walk_alike tb va hs h
  by_cases hread : ∃ tb ix, i = .readU64 tb ix
  · obtain ⟨tb, ix, rfl⟩ := hread
    exact exec_readU64_alike tb ix hs h
  simp only [not_exists] at hwalk hread
  obtain ⟨w, os, rfl, hw, hos⟩ := hs
  obtain ⟨-, -, hothers, -⟩ := exec_frame h
  exact ⟨_, exec_combinational_withInstances hwalk hread h w os, w, os, rfl,
    by rwa [exec_combinational_walker hwalk hread h], by rwa [hothers]⟩

/-! ### Turns and steps of alike machines -/

theorem forall₂_getElem? {α β : Type} {R : α → β → Prop} {l : List α} {l' : List β} (h : List.Forall₂ R l l') :
    ∀ {k : Nat} {a : α}, l[k]? = some a → ∃ b, l'[k]? = some b ∧ R a b := by
  induction h with
  | nil => intro k a ha; simp at ha
  | cons hab _ ih =>
    intro k a ha
    cases k with
    | zero => exact ⟨_, rfl, by cases ha; exact hab⟩
    | succ k => exact ih ha

theorem forall₂_set {α β : Type} {R : α → β → Prop} {l : List α} {l' : List β} {a : α} {b : β} (hab : R a b)
    (h : List.Forall₂ R l l') : ∀ k : Nat, List.Forall₂ R (l.set k a) (l'.set k b) := by
  induction h with
  | nil => exact fun _ => .nil
  | cons hhead htail ih =>
    intro k
    cases k with
    | zero => exact .cons hab htail
    | succ k => exact .cons hhead (ih k)

theorem act_select {s : State} {k : Nat} {o : Ttw} (h : s.others[k]? = some o) :
    s.act (.select k) = .next (s.selectWalker k o) := by
  simp [State.act, h]

theorem act_proceed_issue {s : State} (h : s.walker.fsm = .issue) : s.act .proceed = .next s.issueRead := by
  simp [State.act, h]

theorem act_proceed_done {s : State} (h : s.walker.fsm = .done) : s.act .proceed = .next s.deliver := by
  simp [State.act, h]

theorem act_proceed_other {s : State} (hi : s.walker.fsm ≠ .issue) (hd : s.walker.fsm ≠ .done) :
    s.act .proceed = .next s := by
  cases h : s.walker.fsm <;> simp_all [State.act]

/-- ISSUE, DELIVER, or nothing. -/
theorem act_proceed_alike {s s' t : State} (hs : s.Alike s') (h : s.act .proceed = .next t) :
    ∃ t', s'.act .proceed = .next t' ∧ t.Alike t' := by
  obtain ⟨w, os, rfl, hw, hos⟩ := hs
  by_cases hi : s.walker.fsm = .issue
  · rw [act_proceed_issue hi] at h
    cases h
    obtain ⟨-, hcur, -⟩ := hw.running (.inl hi)
    have hslot : RdReq.mk w.curTable w.curIndex = ⟨s.walker.curTable, s.walker.curIndex⟩ := by
      rw [hcur, hw.curIndex (.inl hi)]
    refine ⟨_, act_proceed_issue (hw.fsm.trans hi), { w with fsm := .wait }, os, ?_, alike_issue hw hi, hos⟩
    rw [State.issueRead, withInstances_walker, hslot]
    rfl
  by_cases hd : s.walker.fsm = .done
  · rw [act_proceed_done hd] at h
    cases h
    refine ⟨_, act_proceed_done (hw.fsm.trans hd), w.release, os, ?_, alike_of_idle rfl rfl, hos⟩
    rw [State.deliver, withInstances_walker, hw.ended hd]
    rfl
  · rw [act_proceed_other hi hd] at h
    cases h
    exact ⟨_, act_proceed_other (s := s.withInstances w os) (hw.fsm ▸ hi) (hw.fsm ▸ hd), w, os, rfl, hw, hos⟩

/-- Alike walkers change places (R211). -/
theorem act_select_alike {s s' t : State} (k : Nat) (hs : s.Alike s') (h : s.act (.select k) = .next t) :
    ∃ t', s'.act (.select k) = .next t' ∧ t.Alike t' := by
  obtain ⟨w, os, rfl, hw, hos⟩ := hs
  cases ho : s.others[k]? with
  | none => simp [State.act, ho] at h
  | some o =>
    rw [act_select ho] at h
    cases h
    obtain ⟨o', ho', halike, hports⟩ := forall₂_getElem? hos ho
    refine ⟨_, act_select (s := s.withInstances w os) ho', o'.walker, os.set k ⟨w, s.ports⟩, ?_, halike,
      forall₂_set ⟨hw, rfl⟩ hos k⟩
    simp only [State.selectWalker, hports]
    rfl

/-- The same turn leaves alike machines alike. -/
theorem act_alike {s s' t : State} {u : Turn} (hs : s.Alike s') (h : s.act u = .next t) :
    ∃ t', s'.act u = .next t' ∧ t.Alike t' := by
  cases u with
  | proceed => exact act_proceed_alike hs h
  | select k => exact act_select_alike k hs h
  | answer r =>
    cases h
    have hparams : s'.params = s.params := by obtain ⟨w, os, rfl, -⟩ := hs; rfl
    exact ⟨_, rfl, hparams ▸ alike_takeAnswer hs _⟩
  | hold => cases h; exact ⟨_, rfl, hs⟩
  | operate port word => cases h; exact ⟨_, rfl, hs⟩
  | lateAnswer r => cases h; exact ⟨_, rfl, hs⟩
  | agentWrite a bytes =>
    cases h
    obtain ⟨w, os, rfl, hw, hos⟩ := hs
    exact ⟨_, rfl, w, os, rfl, hw, hos⟩
  | agentErase a count =>
    cases h
    obtain ⟨w, os, rfl, hw, hos⟩ := hs
    exact ⟨_, rfl, w, os, rfl, hw, hos⟩
  | reset =>
    cases h
    obtain ⟨w, os, rfl, -, hos⟩ := hs
    exact ⟨_, rfl, Walker.reset, os, rfl, .refl _, hos⟩

/-- A step of a machine is matched by a step of any machine alike. -/
theorem step_alike {s s' t : State} (hs : s.Alike s') (h : step s = .next t) : ∃ t', step s' = .next t' ∧ t.Alike t' := by
  have hfetch := alike_fetch hs
  obtain ⟨p, bs, i, hf, hd, hexec⟩ | ⟨hf, hact⟩ := step_cases s t h
  · rw [step_of_fetch s' (hfetch.trans hf) hd]
    exact exec_alike (alike_fetched hs) hexec
  · have hturn : s'.turn = s.turn := by obtain ⟨w, os, rfl, -⟩ := hs; rfl
    rw [step_of_no_fetch s' (hfetch.trans hf), hturn]
    exact act_alike (alike_afterTurn hs) hact

theorem run_alike {k : Nat} {s s' t : State} (hs : s.Alike s') (h : s.run k = .next t) :
    ∃ t', s'.run k = .next t' ∧ t.Alike t' := by
  induction k generalizing s s' with
  | zero =>
    cases h
    exact ⟨s', rfl, hs⟩
  | succ k ih =>
    obtain ⟨u, hstep, hrun⟩ := run_succ_inv h
    obtain ⟨u', hstep', hu⟩ := step_alike hs hstep
    obtain ⟨t', hrun', ht⟩ := ih hu hrun
    exact ⟨t', (run_succ k s' u' hstep').trans hrun', ht⟩

end Machine

/-- Settles O40: an idle walker's registers may be any, the machines are alike, and every step keeps them so. -/
theorem idleRegistersCarryNothingOver : Obligations.IdleRegistersCarryNothingOver := by
  intro s w k t hs hw hrun
  have hstart : s.Alike { s with walker := w } :=
    ⟨w, s.others, rfl, alike_of_idle hs hw, List.forall₂_same.2 fun _ _ => ⟨.refl _, rfl⟩⟩
  obtain ⟨t', hrun', w', os, rfl, halike, -⟩ := run_alike hstart hrun
  exact ⟨_, hrun', rfl, halike.fsm, rfl⟩

/-! ### A request presented (R35, R157) -/

/-- Settles O20: a busy walker's request is kept by the requester, and the packed request is its two fields side by side. -/
theorem busyWalkerTakesNoRequest : Obligations.BusyWalkerTakesNoRequest :=
  fun tb va s h => exec_walk_busy tb va s h

/-- Settles O50: a request is accepted as malformed, accepted as a walk's, or kept, and each writes no more than it may. -/
theorem walkRequestFrame : Obligations.WalkRequestFrame := by
  intro tb va s t h
  by_cases hf : s.walker.fsm = .idle
  · rw [exec_walk_idle tb va s hf] at h
    cases h
    cases hm : isMalformed s.params tb va with
    | true => simp [hf, accept_malformed s tb va hm]
    | false => simp [hf, accept_wellformed s tb va hm]
  · rw [exec_walk_busy tb va s hf] at h
    cases h
    simp [hf]

/-! ### Reset (R40, R230) -/

/-- Settles O32: each named field at reset, and a turn `proceed` in IDLE with no request, which presents no word and does nothing. -/
theorem resetState : Obligations.ResetState :=
  ⟨rfl, rfl, outstanding_none _ (fun h => nomatch h), rfl, rfl, rfl, step_of_no_fetch State.reset rfl⟩

/-! ### What a turn fetches and runs (R35, R37) -/

namespace Machine

theorem fetch_operate {s : State} {p : Port} {bs : List Byte} (h : s.turn = .operate p bs) : s.fetch = some (p, bs) := by
  simp [State.fetch, h]

theorem fetch_request {s : State} {w : ReqWord} {rest : List ReqWord} (hturn : s.turn = .proceed)
    (hidle : s.walker.fsm = .idle) (hp : s.ports.pending = w :: rest) :
    s.fetch = some (.request, bytesLE (portBytes .request) w.toNat) := by
  simp [State.fetch, hturn, hidle, hp]

theorem fetch_read {s : State} (hturn : s.turn = .proceed) (hw : s.walker.fsm = .wait)
    (ha : s.params.readerAttached = true) :
    s.fetch = some (.reader, bytesLE (portBytes .reader) (packRdReq s.walker.curTable s.walker.curIndex).toNat) := by
  simp [State.fetch, hturn, hw, ha, outstanding_wait s.walker hw, RdReq.word]

/-- The word of a request decodes to it (R92). -/
theorem decode_request (tb va : Word64) :
    decode .request (bytesLE (portBytes .request) (packReq tb va).toNat) = .ok (.walk tb va) := by
  rw [decode_bytesLE _ _ (packReq tb va).isLt]
  simp [decodeWord]

/-- The word of a read decodes to it (R97): 73 bits, and 0 in the padding above them. -/
theorem decode_read (tb : Word64) (ix : Index) :
    decode .reader (bytesLE (portBytes .reader) (packRdReq tb ix).toNat) = .ok (.readU64 tb ix) := by
  have hlt := (packRdReq tb ix).isLt
  rw [decode_bytesLE _ _ (hlt.trans (by decide))]
  simp [decodeWord, hlt]

/-- A word that does not decode is refused by name. -/
theorem step_of_undecodable (s : State) {p : Port} {bs : List Byte} {e : DecodeError} (h : s.fetch = some (p, bs))
    (hd : decode p bs = .error e) : step s = .refused (.undecodable e) := by
  simp [step, State.takeTurn, h, hd]

end Machine

/-- Settles O56: a step with a word that decodes, one with a word that does not, and the state on which the instruction acts. -/
theorem stepRunsTheDecodedInstruction : Obligations.StepRunsTheDecodedInstruction :=
  fun s _ _ h => ⟨fun _ hd => step_of_fetch s h hd, fun _ hd => step_of_undecodable s h hd, fetched_eq s⟩

/-- Settles O57: what each of the three turns fetches, and that the two records decode to the operations they are packed from. -/
theorem fetchPresentsThePortsWord : Obligations.FetchPresentsThePortsWord :=
  fun _ => ⟨fun _ _ h => fetch_operate h,
    fun tb va _ hturn hidle hp => ⟨_, fetch_request hturn hidle hp, decode_request tb va⟩,
    fun hturn hw ha => ⟨_, fetch_read hturn hw ha, decode_read _ _⟩⟩

/-! ### The numeric codes (R21, R93 to R97) -/

namespace Machine

/-- Each flag has the bit of PERMS that R94 gives it. -/
theorem pack_bits (p : Perms) :
    p.pack.getLsbD 0 = p.privRead ∧ p.pack.getLsbD 1 = p.privWrite ∧ p.pack.getLsbD 2 = p.privExec ∧
    p.pack.getLsbD 3 = p.userRead ∧ p.pack.getLsbD 4 = p.userWrite ∧ p.pack.getLsbD 5 = p.userExec := by
  simp only [Perms.pack, BitVec.getLsbD_append, BitVec.getLsbD_ofBool]
  simp

theorem unpack_pack (p : Perms) : Perms.unpack p.pack = p := by
  obtain ⟨h0, h1, h2, h3, h4, h5⟩ := pack_bits p
  simp only [Perms.unpack, h0, h1, h2, h3, h4, h5]

theorem pack_unpack (b : BitVec 6) : (Perms.unpack b).pack = b := by
  obtain ⟨h0, h1, h2, h3, h4, h5⟩ := pack_bits (Perms.unpack b)
  apply BitVec.eq_of_getLsbD_eq
  intro i hi
  match i, hi with
  | 0, _ => exact h0
  | 1, _ => exact h1
  | 2, _ => exact h2
  | 3, _ => exact h3
  | 4, _ => exact h4
  | 5, _ => exact h5

/-- The status of a response names the variant of its result, and no other (R93). -/
theorem status_iff (r : WalkResult) :
    (r.status = 0#3 ↔ ∃ a p, r = .success a p) ∧ (r.status = 1#3 ↔ ∃ l, r = .failure l) ∧
    (r.status = 2#3 ↔ ∃ l, r = .stopped l) ∧ (r.status = 3#3 ↔ ∃ l tb ix e, r = .readFailure l tb ix e) ∧
    (r.status = 4#3 ↔ r = .malformedArgument) := by
  cases r <;> simp [WalkResult.status]

end Machine

/-- Settles O58: PERMS bit by bit and both ways, the codes as they are defined, and the status by the variants of the result. -/
theorem recordCodes : Obligations.RecordCodes :=
  ⟨unpack_pack, pack_unpack, pack_bits, ⟨rfl, rfl, rfl, rfl⟩, ⟨rfl, rfl, rfl, rfl⟩, fun _ => rfl, fun _ => rfl,
    fun r => status_iff r.result⟩

end Sys2Proof
end

section
/-! PROOFS. Memory and its reader (spec/20_memory.md): where a slot is, which bytes an edit of another agent changes, how the attached
reader answers, and what an answer changes in the machine. -/

namespace Sys2Proof

/-! ### Where a slot is (R51, R54, R55, R68) -/

/-- A slot of an aligned table does not wrap (R55). -/
theorem slotAddr_toNat_aligned {p : Params} {tb : Word64} {ix : Index} (h : p.overrideOf tb ix = none)
    (ha : tb.toNat % 4096 = 0) : (p.slotAddr tb ix).toNat = tb.toNat + 8 * ix.toNat := by
  have htb := tb.isLt
  have hix := ix.isLt
  rw [slotAddr_toNat, slotSum_array p tb ix h]
  omega

/-- The addresses of a slot's bytes, counted from its address before or after that wraps. -/
theorem slotAddr_add_mod (p : Params) (tb : Word64) (ix : Index) (k : Nat) :
    ((p.slotAddr tb ix).toNat + k) % 2 ^ 64 = (p.slotSum tb ix + k) % 2 ^ 64 := by
  rw [slotAddr_toNat, Nat.mod_add_mod]

/-- Settles O47: the parameter's own address, or the sum modulo 2^64, which for an aligned table and nine bits of index is the sum. -/
theorem slotStaysInItsTable : Obligations.SlotStaysInItsTable := by
  intro p tb ix
  refine ⟨fun a h => slotAddr_override p tb ix a h, fun h => ⟨?_, fun ha => ?_⟩⟩
  · rw [slotAddr_toNat, slotSum_array p tb ix h]
  · have haddr := slotAddr_toNat_aligned h ha
    have hix := ix.isLt
    omega

/-- Settles O48: addresses agree as their sums modulo 2^64 do, and of aligned tables the sums themselves agree, frame and index apart. -/
theorem slotAliasing : Obligations.SlotAliasing := by
  intro p tb tb' ix ix' h h'
  constructor
  · rw [← BitVec.toNat_inj, slotAddr_toNat, slotAddr_toNat, slotSum_array p tb ix h, slotSum_array p tb' ix' h']
  · intro ha ha' heq
    have hsum : tb.toNat + 8 * ix.toNat = tb'.toNat + 8 * ix'.toNat := by
      rw [← slotAddr_toNat_aligned h ha, ← slotAddr_toNat_aligned h' ha', heq]
    have hix := ix.isLt
    have hix' := ix'.isLt
    exact ⟨BitVec.eq_of_toNat_eq (by omega), BitVec.eq_of_toNat_eq (by omega)⟩

namespace Machine

/-! ### Runs of bytes, modulo 2^64 -/

/-- How far above an address another one lies, modulo 2^64. -/
def byteOffset (addr : Word64) (a : Nat) : Nat := (a + 2 ^ 64 - addr.toNat) % 2 ^ 64

theorem byteOffset_self (addr : Word64) : byteOffset addr addr.toNat = 0 := by
  simp [byteOffset]

/-- The byte below an address is the last one above it. -/
theorem byteOffset_add_one_self (addr : Word64) : byteOffset (addr + 1) addr.toNat = 2 ^ 64 - 1 := by
  have h := addr.isLt
  have hsucc : (addr + 1).toNat = (addr.toNat + 1) % 2 ^ 64 := by simp [BitVec.toNat_add]
  simp only [byteOffset]
  omega

/-- Any other byte is one nearer to the next address. -/
theorem byteOffset_of_ne {addr : Word64} {a : Nat} (ha : a < 2 ^ 64) (hne : a ≠ addr.toNat) :
    byteOffset addr a = byteOffset (addr + 1) a + 1 := by
  have h := addr.isLt
  have hsucc : (addr + 1).toNat = (addr.toNat + 1) % 2 ^ 64 := by simp [BitVec.toNat_add]
  simp only [byteOffset]
  omega

/-- After bytes are written, a byte among them reads as written, every other one as before (R62). -/
theorem readByte_writeBytes (m : Memory) (addr : Word64) (bs : List Byte) (hlen : bs.length ≤ 2 ^ 64) {a : Nat}
    (ha : a < 2 ^ 64) :
    Memory.readByte (Memory.writeBytes m addr bs) a = bs[byteOffset addr a]?.or (Memory.readByte m a) := by
  induction bs generalizing m addr with
  | nil => simp [Memory.writeBytes]
  | cons b bs ih =>
    rw [List.length_cons] at hlen
    rw [Memory.writeBytes, ih _ _ (by omega), readByte_writeByte]
    by_cases h : a = addr.toNat
    · subst h
      have hnone : bs[byteOffset (addr + 1) addr.toNat]? = none :=
        List.getElem?_eq_none (by rw [byteOffset_add_one_self]; omega)
      rw [byteOffset_self, hnone]
      simp
    · rw [byteOffset_of_ne ha h, if_neg h, List.getElem?_cons_succ]

/-- After bytes are erased, a byte among them reads as nothing, every other one as before (R52). -/
theorem readByte_eraseBytes (m : Memory) (addr : Word64) (n : Nat) (hm : Memory.wf m = true) {a : Nat} (ha : a < 2 ^ 64) :
    Memory.readByte (Memory.eraseBytes m addr n) a = if byteOffset addr a < n then none else Memory.readByte m a := by
  induction n generalizing m addr with
  | zero => simp [Memory.eraseBytes]
  | succ n ih =>
    rw [Memory.eraseBytes, ih _ _ (wf_eraseByte m _ hm), readByte_eraseByte m _ _ hm]
    by_cases h : a = addr.toNat
    · subst h
      simp [byteOffset_self]
    · simp [byteOffset_of_ne ha h, h]

/-- The `k`th byte from an address on has the offset `k`. -/
theorem byteOffset_add_mod (addr : Word64) {k : Nat} (hk : k < 2 ^ 64) :
    byteOffset addr ((addr.toNat + k) % 2 ^ 64) = k := by
  have h := addr.isLt
  simp only [byteOffset]
  omega

/-- All listed, and the bytes read in the order of their addresses: `readBytes_some` for as many bytes as are read. -/
theorem readBytes_ofFn {m : Memory} {n : Nat} {addr : Word64} (f : Fin n → Byte)
    (h : ∀ k : Fin n, Memory.readByte m ((addr.toNat + k.val) % 2 ^ 64) = some (f k)) :
    Memory.readBytes m n addr = some (List.ofFn f) := by
  rw [readBytes_some m n addr (fun k => if hk : k < n then f ⟨k, hk⟩ else 0) (fun k hk => by simpa [hk] using h ⟨k, hk⟩),
    Option.some_inj]
  exact List.ext_getElem (by simp) (by simp +contextual)

/-- Bytes just written read back (R65). -/
theorem readBytes_writeBytes (m : Memory) (addr : Word64) (bs : List Byte) (hlen : bs.length ≤ 2 ^ 64) :
    Memory.readBytes (Memory.writeBytes m addr bs) bs.length addr = some bs := by
  have hread : ∀ k : Fin bs.length,
      Memory.readByte (Memory.writeBytes m addr bs) ((addr.toNat + k.val) % 2 ^ 64) = some (bs.get k) := by
    intro k
    rw [readByte_writeBytes m addr bs hlen (Nat.mod_lt _ (by decide)), byteOffset_add_mod addr (by omega)]
    simp
  rw [readBytes_ofFn _ hread, List.ofFn_get]

/-! ### The 8 bytes of a value (R53) -/

@[simp] theorem slotBytesOf_length (order : ByteOrder) (v : Word64) : (slotBytesOf order v).length = 8 := by
  cases order <;> simp [slotBytesOf]

/-- The value of a value's bytes is the value. -/
@[simp] theorem slotValue_slotBytesOf (order : ByteOrder) (v : Word64) : slotValue order (slotBytesOf order v) = v := by
  have hv : ofBytesLE (bytesLE 8 v.toNat) = v.toNat := ofBytesLE_bytesLE_of_lt v.isLt
  cases order <;> simp [slotValue, slotBytesOf, hv]

/-- The bytes of the number that 8 bytes make. -/
theorem bytesLE_ofNat_ofBytesLE {bs : List Byte} (h : bs.length = 8) :
    bytesLE 8 (BitVec.ofNat 64 (ofBytesLE bs)).toNat = bs := by
  have hlt : ofBytesLE bs < 2 ^ 64 := by simpa [h] using ofBytesLE_lt bs
  rw [BitVec.toNat_ofNat, Nat.mod_eq_of_lt hlt, ← h, bytesLE_ofBytesLE]

/-- The bytes of the value of 8 bytes are these bytes. -/
theorem slotBytesOf_slotValue (order : ByteOrder) {bs : List Byte} (h : bs.length = 8) :
    slotBytesOf order (slotValue order bs) = bs := by
  cases order with
  | little => exact bytesLE_ofNat_ofBytesLE h
  | big =>
    have hrev : bs.reverse.length = 8 := by rw [List.length_reverse, h]
    rw [slotBytesOf, slotValue, bytesLE_ofNat_ofBytesLE hrev, List.reverse_reverse]

theorem bytesLE_getElem (n w k : Nat) (h : k < (bytesLE n w).length) : (bytesLE n w)[k] = BitVec.ofNat 8 (w / 256 ^ k) := by
  induction n generalizing w k with
  | zero => simp [bytesLE] at h
  | succ n ih =>
    cases k with
    | zero => simp [bytesLE]
    | succ k => simp [bytesLE, ih, Nat.div_div_eq_div_mul, Nat.pow_succ']

/-- The `k`th byte of a value, least significant first, is its bits `8k+7:8k`. -/
theorem bytesLE_getElem_eq_slice (v : Word64) (k : Nat) (h : k < (bytesLE 8 v.toNat).length) :
    (bytesLE 8 v.toNat)[k] = v.extractLsb' (8 * k) 8 := by
  apply BitVec.eq_of_toNat_eq
  rw [bytesLE_getElem, BitVec.toNat_ofNat, BitVec.extractLsb'_toNat, Nat.shiftRight_eq_div_pow, Nat.pow_mul]

/-- The `k`th byte from the least significant end is the `k`th or the `(7 - k)`th in the order of the addresses (R53). -/
theorem slotBytesOf_getElem?_eq_slice (order : ByteOrder) (v : Word64) (k : Fin 8) :
    (slotBytesOf order v)[match order with
      | .little => k.val
      | .big => (7 - k).val]? = some (v.extractLsb' (8 * k.val) 8) := by
  have hk : k.val < (bytesLE 8 v.toNat).length := by rw [bytesLE_length]; exact k.isLt
  have hslice : (bytesLE 8 v.toNat)[k.val]? = some (v.extractLsb' (8 * k.val) 8) := by
    rw [List.getElem?_eq_getElem hk, bytesLE_getElem_eq_slice]
  cases order with
  | little => exact hslice
  | big =>
    have hrev : 8 - 1 - (7 - k).val = k.val := by omega
    rw [slotBytesOf, List.getElem?_reverse (by simp), bytesLE_length, ← hslice]
    simp only [hrev]

/-! ### What the attached reader answers (R51 to R53, R99) -/

/-- The reader serves the slot (93 U12; log entry 12). -/
def serves (p : Params) (tb : Word64) (ix : Index) : Prop :=
  (p.serveUnaligned = true ∨ p.slotSum tb ix % 8 = 0) ∧ (p.serveWrapped = true ∨ p.slotSum tb ix + 7 < 2 ^ 64)

theorem serves_iff (p : Params) (tb : Word64) (ix : Index) :
    ((p.serveUnaligned || p.slotAligned tb ix) && (p.serveWrapped || p.slotInRange tb ix)) = true ↔ serves p tb ix := by
  simp [serves, Params.slotAligned, Params.slotInRange]

theorem readU64_served {s : State} {tb : Word64} {ix : Index} {bs : List Byte} (hs : serves s.params tb ix)
    (h : Memory.readBytes s.mem 8 (s.params.slotAddr tb ix) = some bs) :
    s.readU64 tb ix = .ok (slotValue s.params.byteOrder bs) := by
  rw [State.readU64, if_pos ((serves_iff _ _ _).2 hs), Config.slotBytes, h]

theorem readU64_not_served {s : State} {tb : Word64} {ix : Index} (hs : ¬ serves s.params tb ix) :
    s.readU64 tb ix = .err (s.params.errorType.element s.params.absentErr) := by
  rw [State.readU64, if_neg (mt (serves_iff _ _ _).1 hs)]

theorem readU64_unlisted {s : State} {tb : Word64} {ix : Index}
    (h : Memory.readBytes s.mem 8 (s.params.slotAddr tb ix) = none) :
    s.readU64 tb ix = .err (s.params.errorType.element s.params.absentErr) := by
  simp [State.readU64, Config.slotBytes, h]

/-! ### The turns of another agent (R62, R238) -/

theorem step_of_agentWrite {s : State} {addr : Word64} {bs : List Byte} (h : s.turn = .agentWrite addr bs) :
    step s = .next (s.afterTurn.agentWrite addr bs) := by
  have hf : s.fetch = none := by simp [State.fetch, h]
  rw [step_of_no_fetch s hf, h]
  rfl

theorem step_of_agentErase {s : State} {addr : Word64} {n : Nat} (h : s.turn = .agentErase addr n) :
    step s = .next (s.afterTurn.agentErase addr n) := by
  have hf : s.fetch = none := by simp [State.fetch, h]
  rw [step_of_no_fetch s hf, h]
  rfl

end Machine

open Machine

/-- Settles O26: the 8 listed bytes read in the order of their addresses, and they are the bytes of the value they make. -/
theorem readerAssemblesTheSlot : Obligations.ReaderAssemblesTheSlot := by
  intro s tb ix byteAt hal hrange hlisted
  have hbytes : Memory.readBytes s.mem 8 (s.params.slotAddr tb ix) = some (List.ofFn byteAt) :=
    readBytes_ofFn byteAt fun k => by rw [slotAddr_add_mod, hlisted k]
  refine ⟨_, readU64_served ⟨hal, hrange⟩ hbytes, fun k => ?_⟩
  have hslice := slotBytesOf_getElem?_eq_slice s.params.byteOrder (slotValue s.params.byteOrder (List.ofFn byteAt)) k
  rw [slotBytesOf_slotValue _ List.length_ofFn] at hslice
  have hlist (j : Fin 8) : (List.ofFn byteAt)[j.val]? = some (byteAt j) := by rw [List.getElem?_ofFn, dif_pos j.isLt]
  rw [← Option.some_inj, ← hslice]
  cases s.params.byteOrder with
  | little => exact hlist k
  | big => exact hlist (7 - k)

/-- Settles O27: one unlisted byte keeps the 8 from reading, and the reader does not serve the slots of the other two cases. -/
theorem readerRefusesUnlistedSlots : Obligations.ReaderRefusesUnlistedSlots := by
  intro s tb ix h
  obtain ⟨k, hk⟩ | ⟨hu, hal⟩ | ⟨hw, hrange⟩ := h
  · rw [← slotAddr_add_mod] at hk
    exact readU64_unlisted (readBytes_none _ _ _ k.val k.isLt hk)
  · exact readU64_not_served fun ⟨hs, _⟩ => hs.elim (by simp [hu]) hal
  · exact readU64_not_served fun ⟨_, hs⟩ => hs.elim (by simp [hw]) hrange.not_gt

/-! ### Edits by other agents (R62, R65, R238, R240) -/

/-- Settles O45: the step is the edit alone, and a byte reads by its offset from the edit's address. -/
theorem agentEditsChangeOnlyTheirBytes : Obligations.AgentEditsChangeOnlyTheirBytes := by
  intro s t addr hwf hstep
  constructor
  · intro bytes hturn hlen
    obtain rfl : s.afterTurn.agentWrite addr bytes = t := by simpa [step_of_agentWrite hturn] using hstep
    refine ⟨fun a ha => ?_, rfl⟩
    simp only [State.agentWrite_mem, State.afterTurn_mem, readByte_writeBytes s.mem addr bytes hlen ha, byteOffset]
    cases bytes[(a + 2 ^ 64 - addr.toNat) % 2 ^ 64]? <;> rfl
  · intro count hturn
    obtain rfl : s.afterTurn.agentErase addr count = t := by simpa [step_of_agentErase hturn] using hstep
    exact ⟨fun a ha => readByte_eraseBytes s.mem addr count hwf ha, rfl⟩

/-- Settles O46: the bytes just written read back, and their value is the value they were taken from. -/
theorem tableEditIsSeenByLaterReads : Obligations.TableEditIsSeenByLaterReads := by
  intro s t tb ix v hal hrange hturn hstep
  obtain rfl : s.afterTurn.agentWrite _ _ = t := by simpa [step_of_agentWrite hturn] using hstep
  have hbytes := readBytes_writeBytes s.mem (s.params.slotAddr tb ix) (slotBytesOf s.params.byteOrder v) (by simp)
  rw [slotBytesOf_length] at hbytes
  rw [readU64_served (s := s.afterTurn.agentWrite _ _) ⟨hal, hrange⟩ hbytes]
  simp

/-! ### An answer of the reader (R50, R159, R160, R162) -/

/-- Settles O25: the read is the outstanding one, and the walker takes the answer, or it is not, and only the port changes. -/
theorem readU64IsAnsweredByTheReader : Obligations.ReadU64IsAnsweredByTheReader := by
  intro tb ix s
  constructor
  · intro hw htb hix
    exact exec_readU64_awaited tb ix s ((awaits_iff _ _ _).2 ⟨hw, htb, hix⟩)
  · intro hother
    have hno : ¬ s.walker.awaits tb ix = true := by
      rw [awaits_iff]
      rintro ⟨hw, htb, hix⟩
      exact hother.elim (· hw) (Or.elim · (· htb) (· hix))
    exact exec_readU64_other tb ix s (by simpa using hno)

/-- Settles O51: an answer that is taken changes what `answered_frame` leaves open, and one that is not only the reader's port. -/
theorem readU64Frame : Obligations.ReadU64Frame := by
  intro tb ix s t h
  cases ha : s.walker.awaits tb ix with
  | true =>
    rw [exec_readU64_awaited tb ix s ha] at h
    cases h
    obtain ⟨hidx, htrace⟩ := answered_frame s.walker (s.readU64 tb ix)
    have hwait := ((awaits_iff _ _ _).1 ha).1
    exact ⟨fun _ => rfl, hidx, htrace, rfl, fun hw => absurd hwait hw⟩
  | false =>
    rw [exec_readU64_other tb ix s ha] at h
    cases h
    exact ⟨fun _ => rfl, rfl, fun _ _ => rfl, rfl, fun _ => rfl⟩

end Sys2Proof
end

section
/-! PROOFS. The encodings (spec/30_encoding.md): words and instructions one for one on every port, the decode map of the classifier, the
bits of a descriptor that are looked at, and when an instruction stops. -/

namespace Sys2Proof

namespace Machine

/-! ### The rows of the classifier (R87, R88, R121 to R124) -/

theorem isInvalidEntry_iff (entry : Word64) : isInvalidEntry entry = true ↔ entryValid entry = false := by
  simp [isInvalidEntry]

theorem isBlockEntry_iff (entry : Word64) (level : Level) :
    isBlockEntry entry level = true ↔ level < 3 ∧ entryValid entry = true ∧ entryType entry = false := by
  simp [isBlockEntry, and_assoc]

theorem isTableEntry_iff (entry : Word64) (level : Level) :
    isTableEntry entry level = true ↔ level < 3 ∧ entryValid entry = true ∧ entryType entry = true := by
  simp [isTableEntry, and_assoc]

theorem isPageEntry_iff (entry : Word64) (level : Level) :
    isPageEntry entry level = true ↔ level = 3 ∧ entryValid entry = true := by
  simp [isPageEntry]

/-- Every word at every level is of one of the four rows (R88: "there is no other case"). -/
theorem classifierRow_cases (entry : Word64) (level : Level) :
    isInvalidEntry entry = true ∨ isBlockEntry entry level = true ∨ isTableEntry entry level = true ∨
    isPageEntry entry level = true := by
  rw [isInvalidEntry_iff, isBlockEntry_iff, isTableEntry_iff, isPageEntry_iff]
  obtain ⟨hv, -⟩ | ⟨hl, hv, ht, -⟩ | ⟨hl, hv, ht, -⟩ | ⟨hl, hv, -⟩ := classify_cases entry level
  · exact .inl hv
  · exact .inr (.inl ⟨hl, hv, ht⟩)
  · exact .inr (.inr (.inl ⟨hl, hv, ht⟩))
  · exact .inr (.inr (.inr ⟨hl, hv⟩))

theorem decodeEntry_invalid {entry : Word64} {level : Level} (h : isInvalidEntry entry = true) :
    decodeEntry entry level = .classifyInvalid entry level := by
  simp [decodeEntry, (isInvalidEntry_iff entry).1 h]

theorem decodeEntry_block {entry : Word64} {level : Level} (h : isBlockEntry entry level = true) :
    decodeEntry entry level = .classifyBlock entry level := by
  obtain ⟨hl, hv, ht⟩ := (isBlockEntry_iff entry level).1 h
  simp [decodeEntry, hl, hv, ht]

theorem decodeEntry_table {entry : Word64} {level : Level} (h : isTableEntry entry level = true) :
    decodeEntry entry level = .classifyTable entry level := by
  obtain ⟨hl, hv, ht⟩ := (isTableEntry_iff entry level).1 h
  simp [decodeEntry, hl, hv, ht]

theorem decodeEntry_page {entry : Word64} {level : Level} (h : isPageEntry entry level = true) :
    decodeEntry entry level = .classifyPage entry level := by
  obtain ⟨rfl, hv⟩ := (isPageEntry_iff entry level).1 h
  simp [decodeEntry, hv]

/-- What the classifier's decode order reads is a word of its row, and its own word again. -/
theorem decodeEntry_row (entry : Word64) (level : Level) :
    portOf (decodeEntry entry level) = .classifier level ∧ encodeWord (decodeEntry entry level) = entry.toNat ∧
    (decodeEntry entry level).wf = true := by
  obtain h | h | h | h := classifierRow_cases entry level
  · rw [decodeEntry_invalid h]; exact ⟨rfl, rfl, h⟩
  · rw [decodeEntry_block h]; exact ⟨rfl, rfl, h⟩
  · rw [decodeEntry_table h]; exact ⟨rfl, rfl, h⟩
  · rw [decodeEntry_page h]; exact ⟨rfl, rfl, h⟩

/-! ### The rows of the AP field (R138 to R141) -/

theorem decodeAp_ap0 {entry : AssertedEntry} (h : entryAp entry.word = 0) : decodeAp entry = .permAp0 entry := by
  simp [decodeAp, h]

theorem decodeAp_ap1 {entry : AssertedEntry} (h : entryAp entry.word = 1) : decodeAp entry = .permAp1 entry := by
  simp [decodeAp, h]

theorem decodeAp_ap2 {entry : AssertedEntry} (h : entryAp entry.word = 2) : decodeAp entry = .permAp2 entry := by
  simp [decodeAp, h]

theorem decodeAp_ap3 {entry : AssertedEntry} (h : entryAp entry.word = 3) : decodeAp entry = .permAp3 entry := by
  simp [decodeAp, h]

/-- What the access lines read is a word of its row, and its own word again. -/
theorem decodeAp_row (entry : AssertedEntry) :
    portOf (decodeAp entry) = .accessLines entry.level ∧ encodeWord (decodeAp entry) = entry.word.toNat ∧
    (decodeAp entry).wf = true := by
  have hfour : ∀ ap : BitVec 2, ap = 0 ∨ ap = 1 ∨ ap = 2 ∨ ap = 3 := by decide
  obtain h | h | h | h := hfour (entryAp entry.word)
  · rw [decodeAp_ap0 h]; exact ⟨rfl, rfl, beq_iff_eq.2 h⟩
  · rw [decodeAp_ap1 h]; exact ⟨rfl, rfl, beq_iff_eq.2 h⟩
  · rw [decodeAp_ap2 h]; exact ⟨rfl, rfl, beq_iff_eq.2 h⟩
  · rw [decodeAp_ap3 h]; exact ⟨rfl, rfl, beq_iff_eq.2 h⟩

/-! ### From an instruction to its word and back -/

/-- On a port of 64-bit words, the bytes of a word decode as the word does. -/
theorem decode_word64 {p : Port} (hp : portBytes p = 8) (v : Word64) :
    decode p (bytesLE 8 v.toNat) = decodeWord p v.toNat := by
  have hlt : v.toNat < 256 ^ portBytes p := by rw [hp]; exact v.isLt
  simpa only [hp] using decode_bytesLE p v.toNat hlt

/-- A DESC word on the classifier's port. -/
theorem decode_classifier (entry : Word64) (level : Level) :
    decode (.classifier level) (bytesLE 8 entry.toNat) = .ok (decodeEntry entry level) := by
  rw [decode_word64 rfl]
  simp [decodeWord]

/-- A DESC word on the access lines. -/
theorem decode_accessLines (entry : AssertedEntry) :
    decode (.accessLines entry.level) (bytesLE 8 entry.word.toNat) = .ok (decodeAp entry) := by
  rw [decode_word64 rfl]
  simp [decodeWord]

/-- Decoding the encoding of a well-formed instruction: at the classifier and the access lines the row's fixed bits lead the decoder back
to the row. -/
theorem decode_encode {i : Instr} (h : i.wf = true) : decode (portOf i) (encode i) = .ok i := by
  cases i with
  | decompose va => exact (decode_word64 rfl va).trans (by simp [decodeWord, portOf])
  | classifyInvalid entry level => exact (decode_classifier entry level).trans (congrArg _ (decodeEntry_invalid h))
  | classifyBlock entry level => exact (decode_classifier entry level).trans (congrArg _ (decodeEntry_block h))
  | classifyTable entry level => exact (decode_classifier entry level).trans (congrArg _ (decodeEntry_table h))
  | classifyPage entry level => exact (decode_classifier entry level).trans (congrArg _ (decodeEntry_page h))
  | decodePermissions entry level => exact (decode_word64 rfl entry).trans (by simp [decodeWord, portOf])
  | permUxnClear entry => exact (decode_word64 rfl entry.word).trans (by simp [decodeWord, portOf])
  | permPxnClear entry => exact (decode_word64 rfl entry.word).trans (by simp [decodeWord, portOf])
  | permAp0 entry => exact (decode_accessLines entry).trans (congrArg _ (decodeAp_ap0 (beq_iff_eq.1 h)))
  | permAp1 entry => exact (decode_accessLines entry).trans (congrArg _ (decodeAp_ap1 (beq_iff_eq.1 h)))
  | permAp2 entry => exact (decode_accessLines entry).trans (congrArg _ (decodeAp_ap2 (beq_iff_eq.1 h)))
  | permAp3 entry => exact (decode_accessLines entry).trans (congrArg _ (decodeAp_ap3 (beq_iff_eq.1 h)))
  | walk tableBase va => exact decode_request tableBase va
  | readU64 tableBase index => exact decode_read tableBase index

/-! ### From bytes to an instruction and back -/

/-- A REQ word is its two fields packed (R92). -/
theorem packReq_reqFields (w : ReqWord) : packReq (reqTableBase w) (reqVa w) = w := by
  simpa [packReq, reqTableBase, reqVa] using
    BitVec.extractLsb'_append_extractLsb'_eq_extractLsb' (x := w) (start₁ := 0) (len₁ := 64) (start₂ := 64) (len₂ := 64) rfl

/-- An RDREQ word is its two fields packed (R97). -/
theorem packRdReq_rdFields (w : RdReqWord) : packRdReq (rdTableBase w) (rdIndex w) = w := by
  simpa [packRdReq, rdTableBase, rdIndex] using
    BitVec.extractLsb'_append_extractLsb'_eq_extractLsb' (x := w) (start₁ := 0) (len₁ := 9) (start₂ := 9) (len₂ := 64) rfl

/-- Bytes that decode have the port's length, and decode as the number they make. -/
theorem decode_ok {p : Port} {bytes : List Byte} {i : Instr} (h : decode p bytes = .ok i) :
    bytes.length = portBytes p ∧ decodeWord p (ofBytesLE bytes) = .ok i := by
  by_cases hlen : bytes.length = portBytes p
  · exact ⟨hlen, by simpa [decode, hlen] using h⟩
  · rw [decode_wrongLength p bytes hlen] at h
    exact nomatch h

/-- A word that fits its port and decodes is the word of a well-formed instruction of that port. -/
theorem decodeWord_ok {p : Port} {w : Nat} {i : Instr} (hw : w < 256 ^ portBytes p) (h : decodeWord p w = .ok i) :
    portOf i = p ∧ encodeWord i = w ∧ i.wf = true := by
  cases p with
  | request =>
    cases h
    exact ⟨rfl, by rw [encodeWord, packReq_reqFields]; exact Nat.mod_eq_of_lt hw, rfl⟩
  | reader =>
    have hw73 : w < 2 ^ 73 := by
      by_contra hge
      rw [decodeWord, if_neg hge] at h
      exact nomatch h
    rw [decodeWord, if_pos hw73] at h
    cases h
    exact ⟨rfl, by rw [encodeWord, packRdReq_rdFields]; exact Nat.mod_eq_of_lt hw73, rfl⟩
  | decomposer => cases h; exact ⟨rfl, Nat.mod_eq_of_lt hw, rfl⟩
  | classifier level =>
    cases h
    obtain ⟨hport, hword, hwf⟩ := decodeEntry_row (BitVec.ofNat 64 w) level
    exact ⟨hport, hword.trans (Nat.mod_eq_of_lt hw), hwf⟩
  | permissions level => cases h; exact ⟨rfl, Nat.mod_eq_of_lt hw, rfl⟩
  | userExecLine level => cases h; exact ⟨rfl, Nat.mod_eq_of_lt hw, rfl⟩
  | privExecLine level => cases h; exact ⟨rfl, Nat.mod_eq_of_lt hw, rfl⟩
  | accessLines level =>
    cases h
    obtain ⟨hport, hword, hwf⟩ := decodeAp_row ⟨BitVec.ofNat 64 w, level⟩
    exact ⟨hport, hword.trans (Nat.mod_eq_of_lt hw), hwf⟩

end Machine

open Machine

/-- Settles O52: the decoder is led back to each constructor by the bits that make its terms well-formed. -/
theorem decodeOfEncode : Obligations.DecodeOfEncode :=
  fun _ h => decode_encode h

/-- Settles O53: the bytes are those of the number they make, and that number is the word of the instruction it decodes to. -/
theorem encodeOfDecode : Obligations.EncodeOfDecode := by
  intro p bytes i h
  obtain ⟨hlen, hdecode⟩ := decode_ok h
  obtain ⟨hport, hword, hwf⟩ := decodeWord_ok (hlen ▸ ofBytesLE_lt bytes) hdecode
  refine ⟨hport, ?_, hwf⟩
  rw [encode, hport, hword, ← hlen, bytesLE_ofBytesLE]

/-- Settles O55: each word evaluates to its instruction. -/
theorem specWordsDecode : Obligations.SpecWordsDecode :=
  ⟨rfl, rfl, rfl, rfl, rfl, rfl⟩

/-! ### The decode map of the classifier (R88) -/

namespace Machine

/-- The row that the classifier's port decodes presents what `classify` gives. -/
theorem exec_decodeEntry (entry : Word64) (level : Level) (s : State) :
    exec (decodeEntry entry level) s = .next (s.driveClassify (classify entry level)) := by
  obtain h | h | h | h := classifierRow_cases entry level
  · rw [decodeEntry_invalid h, classify_invalid ((isInvalidEntry_iff entry).1 h)]
    exact if_pos h
  · obtain ⟨hl, hv, ht⟩ := (isBlockEntry_iff entry level).1 h
    rw [decodeEntry_block h, classify_block hv ht hl]
    exact if_pos h
  · obtain ⟨hl, hv, ht⟩ := (isTableEntry_iff entry level).1 h
    rw [decodeEntry_table h, classify_table hv ht hl]
    exact if_pos h
  · obtain ⟨rfl, hv⟩ := (isPageEntry_iff entry level).1 h
    rw [decodeEntry_page h, classify_page hv]
    exact if_pos h

/-- Bits 1:0 of an entry are its type bit and its valid bit (R82). -/
theorem lowBits_eq (entry : Word64) :
    entry.extractLsb' 0 2 = BitVec.ofBool (entryType entry) ++ BitVec.ofBool (entryValid entry) := by
  apply BitVec.eq_of_getLsbD_eq
  intro k hk
  match k, hk with
  | 0, _ => rw [BitVec.getLsbD_append]; simp [entryValid]
  | 1, _ => rw [BitVec.getLsbD_append]; simp [entryType]

/-- The kind of an entry from its level and its bits 1:0 (R88). -/
theorem classify_kind (entry : Word64) (level : Level) :
    (classify entry level).kind =
      (if entry.extractLsb' 0 2 = 0b00#2 ∨ entry.extractLsb' 0 2 = 0b10#2 then EntryKind.invalid
       else if level = 3 then EntryKind.page
       else if entry.extractLsb' 0 2 = 0b01#2 then EntryKind.block
       else EntryKind.table) := by
  rw [lowBits_eq]
  obtain ⟨hv, hc⟩ | ⟨hl, hv, ht, hc⟩ | ⟨hl, hv, ht, hc⟩ | ⟨rfl, hv, hc⟩ := classify_cases entry level
  · rw [hc, hv]
    cases entryType entry <;> rfl
  · rw [hc, hv, ht]
    simp [Classified.kind, hl.ne]
  · rw [hc, hv, ht]
    simp [Classified.kind, hl.ne]
  · rw [hc, hv]
    cases entryType entry <;> rfl

end Machine

/-- Settles O8: the decode order reads one well-formed row, which presents what `classify` gives, and bits 1:0 give its kind. -/
theorem classifierMapIsTotal : Obligations.ClassifierMapIsTotal := by
  intro entry level s
  obtain ⟨-, -, hwf⟩ := decodeEntry_row entry level
  exact ⟨⟨_, decode_classifier entry level, hwf, exec_decodeEntry entry level s⟩, classify_kind entry level⟩

/-! ### The bits that are looked at (R91) -/

namespace Machine

/-- Entries that agree under a mask agree in each bit of it. -/
theorem getLsbD_eq_of_and_eq {a b m : Word64} (h : a &&& m = b &&& m) {k : Nat} (hk : m.getLsbD k = true) :
    a.getLsbD k = b.getLsbD k := by
  simpa [hk] using congrArg (fun v => v.getLsbD k) h

/-- Entries that agree under a mask that holds bits 47:12 have the same output address. -/
theorem outputAddress_eq_of_and_eq {a b m : Word64} (h : a &&& m = b &&& m) (hm : m &&& Config.oaMask = Config.oaMask) :
    outputAddress a = outputAddress b := by
  rw [outputAddress, outputAddress, ← hm, ← BitVec.and_assoc, h, BitVec.and_assoc]

theorem lookedAt_invalid {entry : Word64} {level : Level} (hv : entryValid entry = false) :
    lookedAt entry level = 0x1#64 := by
  simp [lookedAt, hv]

theorem lookedAt_block {entry : Word64} {level : Level} (hl : level < 3) (hv : entryValid entry = true)
    (ht : entryType entry = false) : lookedAt entry level = 0x3#64 := by
  simp [lookedAt, hl, hv, ht]

theorem lookedAt_table {entry : Word64} {level : Level} (hl : level < 3) (hv : entryValid entry = true)
    (ht : entryType entry = true) : lookedAt entry level = 0x0000FFFFFFFFF003#64 := by
  simp [lookedAt, hl, hv, ht]

theorem lookedAt_page {entry : Word64} (hv : entryValid entry = true) : lookedAt entry 3 = 0x0060FFFFFFFFF0C1#64 := by
  simp [lookedAt, hv]

/-- The bits looked at make the classification, of every kind. -/
theorem classify_eq_of_lookedAt {entry entry' : Word64} {level : Level}
    (h : entry &&& lookedAt entry level = entry' &&& lookedAt entry level) :
    classify entry level = classify entry' level := by
  obtain ⟨hv, hc⟩ | ⟨hl, hv, ht, hc⟩ | ⟨hl, hv, ht, hc⟩ | ⟨rfl, hv, hc⟩ := classify_cases entry level
  · rw [lookedAt_invalid hv] at h
    have hv' : entryValid entry' = false := (getLsbD_eq_of_and_eq h (by decide)).symm.trans hv
    rw [hc, classify_invalid hv']
  · rw [lookedAt_block hl hv ht] at h
    have hv' : entryValid entry' = true := (getLsbD_eq_of_and_eq h (by decide)).symm.trans hv
    have ht' : entryType entry' = false := (getLsbD_eq_of_and_eq h (by decide)).symm.trans ht
    rw [hc, classify_block hv' ht' hl]
  · rw [lookedAt_table hl hv ht] at h
    have hv' : entryValid entry' = true := (getLsbD_eq_of_and_eq h (by decide)).symm.trans hv
    have ht' : entryType entry' = true := (getLsbD_eq_of_and_eq h (by decide)).symm.trans ht
    rw [hc, classify_table hv' ht' hl, outputAddress_eq_of_and_eq h (by decide)]
  · rw [lookedAt_page hv] at h
    have hv' : entryValid entry' = true := (getLsbD_eq_of_and_eq h (by decide)).symm.trans hv
    rw [hc, classify_page hv', outputAddress_eq_of_and_eq h (by decide)]

/-- The bits looked at in a Page entry make its flags: AP, PXN and UXN are among them. -/
theorem decodePermissions_eq_of_lookedAt {entry entry' : Word64} (hv : entryValid entry = true)
    (h : entry &&& lookedAt entry 3 = entry' &&& lookedAt entry 3) :
    decodePermissions entry = decodePermissions entry' := by
  rw [lookedAt_page hv] at h
  have h6 : entry.getLsbD 6 = entry'.getLsbD 6 := getLsbD_eq_of_and_eq h (by decide)
  have h7 : entry.getLsbD 7 = entry'.getLsbD 7 := getLsbD_eq_of_and_eq h (by decide)
  have h53 : entry.getLsbD 53 = entry'.getLsbD 53 := getLsbD_eq_of_and_eq h (by decide)
  have h54 : entry.getLsbD 54 = entry'.getLsbD 54 := getLsbD_eq_of_and_eq h (by decide)
  rw [decodePermissions_bits, decodePermissions_bits, h6, h7, h53, h54]

/-- An answer is taken by its classification and, for a Page, its flags; the raw entry goes into the trace alone. -/
theorem answerOk_eq_of_classify {w : Walker} {v v' : Word64} (hclass : classify v w.level = classify v' w.level)
    (hperms : w.level = 3 → entryValid v = true → decodePermissions v = decodePermissions v') :
    w.answerOk v' = { w.answerOk v with trace := w.trace.set w.level { w.stepFor v with rawEntry := v' } } := by
  obtain ⟨-, hc⟩ | ⟨-, -, -, hc⟩ | ⟨-, -, -, hc⟩ | ⟨hl, hv, hc⟩ := classify_cases v w.level
  case inr.inr.inr =>
    simp only [Walker.answerOk, Walker.stepFor, ← hclass, hc, ← hperms hl hv]
    rfl
  all_goals
    simp only [Walker.answerOk, Walker.stepFor, ← hclass, hc]
    rfl

end Machine

/-- Settles O11: the bits looked at make the classification and a Page's flags, and an answer is taken by these. -/
theorem ignoredDescriptorBitsHaveNoEffect : Obligations.IgnoredDescriptorBitsHaveNoEffect := by
  intro entry entry' w h
  have hclass := classify_eq_of_lookedAt h
  have hperms : w.level = 3 → entryValid entry = true → decodePermissions entry = decodePermissions entry' :=
    fun hl hv => decodePermissions_eq_of_lookedAt hv (hl ▸ h)
  exact ⟨hclass, answerOk_eq_of_classify hclass hperms, hperms⟩

/-! ### When an instruction stops (R144, R196) -/

namespace Machine

/-- The precondition of a call of `decode_permissions`, whole or line by line (R98, R144); no other operation has one. -/
def pageAsserted (i : Instr) : Prop :=
  ∀ entry, permissionEntry i = some entry → entry.level = 3 ∧ entry.word.getLsbD 0 = true

theorem pageAsserted_of_none {i : Instr} (h : permissionEntry i = none) : pageAsserted i :=
  fun _ he => nomatch h.symm.trans he

theorem pageAsserted_iff {i : Instr} {entry : AssertedEntry} (h : permissionEntry i = some entry) :
    pageAsserted i ↔ isPageEntry entry.word entry.level = true := by
  simp [pageAsserted, h, isPageEntry_iff, entryValid]

/-- The three ways in which an instruction can end. -/
inductive Ending (i : Instr) (s : State) : Prop where
  | completes (t : State) (hwf : i.wf = true) (hpage : pageAsserted i) (h : exec i s = .next t)
  | offPage (hwf : i.wf = true) (hpage : ¬ pageAsserted i) (h : exec i s = .refused .notPageKind)
  | illFormed (name : String) (hwf : i.wf = false) (h : exec i s = .refused (.rowMismatch name))

/-- A row with fixed bits refuses a term without them, and has its effect on any other. -/
theorem ending_of_row {i : Instr} {s : State} {c : Prop} [Decidable c] {name : String}
    {o : Host.Outcome State Fault Refusal} (hexec : exec i s = if c then o else .refused (.rowMismatch name))
    (hwf : i.wf = true ↔ c) (hrow : i.wf = true → exec i s = o → Ending i s) : Ending i s := by
  by_cases hc : c
  · exact hrow (hwf.2 hc) (hexec.trans (if_pos hc))
  · exact .illFormed name (Bool.eq_false_iff.2 (hwf.not.2 hc)) (hexec.trans (if_neg hc))

/-- A row of the classifier. -/
theorem ending_of_classifierRow {i : Instr} {s t : State} {name : String}
    (hexec : exec i s = if i.wf = true then .next t else .refused (.rowMismatch name)) (hnone : permissionEntry i = none) :
    Ending i s :=
  ending_of_row hexec Iff.rfl fun hwf h => .completes t hwf (pageAsserted_of_none hnone) h

/-- A well-formed call of `decode_permissions`, whole or line by line, completes on a Page entry and is refused on any other. -/
theorem ending_of_permissions {i : Instr} {s t : State} {entry : AssertedEntry} (hentry : permissionEntry i = some entry)
    (hwf : i.wf = true)
    (hexec : exec i s = if isPageEntry entry.word entry.level = true then .next t else .refused .notPageKind) :
    Ending i s := by
  by_cases hp : isPageEntry entry.word entry.level = true
  · exact .completes t hwf ((pageAsserted_iff hentry).2 hp) (hexec.trans (if_pos hp))
  · exact .offPage hwf ((pageAsserted_iff hentry).not.2 hp) (hexec.trans (if_neg hp))

/-- A row of the access lines. -/
theorem ending_of_apRow {i : Instr} {s : State} {entry : AssertedEntry} {ap : BitVec 2} {l : PermLines} {name : String}
    (hexec : exec i s = if entryAp entry.word = ap then presentLines entry l s else .refused (.rowMismatch name))
    (hwf : i.wf = (entryAp entry.word == ap)) (hentry : permissionEntry i = some entry) : Ending i s :=
  ending_of_row hexec (by rw [hwf, beq_iff_eq]) fun hwf h => ending_of_permissions hentry hwf h

/-- How each instruction ends, one constructor for each row of the table. -/
theorem exec_ending (i : Instr) (s : State) : Ending i s := by
  cases i with
  | decompose va => exact .completes _ rfl (pageAsserted_of_none rfl) rfl
  | classifyInvalid entry level => exact ending_of_classifierRow rfl rfl
  | classifyBlock entry level => exact ending_of_classifierRow rfl rfl
  | classifyTable entry level => exact ending_of_classifierRow rfl rfl
  | classifyPage entry level => exact ending_of_classifierRow rfl rfl
  | decodePermissions entry level => exact ending_of_permissions rfl rfl rfl
  | permUxnClear entry => exact ending_of_permissions rfl rfl rfl
  | permPxnClear entry => exact ending_of_permissions rfl rfl rfl
  | permAp0 entry => exact ending_of_apRow rfl rfl rfl
  | permAp1 entry => exact ending_of_apRow rfl rfl rfl
  | permAp2 entry => exact ending_of_apRow rfl rfl rfl
  | permAp3 entry => exact ending_of_apRow rfl rfl rfl
  | walk tb va =>
    by_cases hf : s.walker.fsm = .idle
    · exact .completes _ rfl (pageAsserted_of_none rfl) (exec_walk_idle tb va s hf)
    · exact .completes _ rfl (pageAsserted_of_none rfl) (exec_walk_busy tb va s hf)
  | readU64 tb ix =>
    cases ha : s.walker.awaits tb ix with
    | true => exact .completes _ rfl (pageAsserted_of_none rfl) (exec_readU64_awaited tb ix s ha)
    | false => exact .completes _ rfl (pageAsserted_of_none rfl) (exec_readU64_other tb ix s ha)

end Machine

/-- Settles O54: the three endings exclude each other, and each part of the statement names one of them. -/
theorem onlyIllFormedTermsStop : Obligations.OnlyIllFormedTermsStop := by
  intro i s
  change (_ ↔ _ ∧ pageAsserted i) ∧ _
  cases exec_ending i s with
  | completes t hwf hpage h => simp [hwf, hpage, h]
  | offPage hwf hpage h => simp [hwf, hpage, h]
  | illFormed name hwf h => simp [hwf, h]

end Sys2Proof
end

section
/-! PROOFS. AddressDecomposer (spec/40_decompose.md): the five fields and the word assembled from them, what a walk sees of its
address, and what an operation of a combinational sub-block leaves as it was. -/

namespace Sys2Proof

namespace Machine

/-! ### The fields and the word assembled from them (R110, R111) -/

/-- The fields are slices of the address (R81, R84). -/
theorem decompose_eq_slices (va : Word64) :
    decompose va =
      { l0 := va.extractLsb' 39 9
        l1 := va.extractLsb' 30 9
        l2 := va.extractLsb' 21 9
        l3 := va.extractLsb' 12 9
        offset := va.extractLsb' 0 12 } := by
  rw [decompose, vaL0_eq_slice, vaL1_eq_slice, vaL2_eq_slice, vaL3_eq_slice, vaOffset_eq_slice]

/-- The address put together from five fields (R111). -/
def VaFields.assemble (d : VaFields) : Word64 :=
  ((d.l0.setWidth 64 : Word64) <<< 39) ||| ((d.l1.setWidth 64 : Word64) <<< 30) |||
    ((d.l2.setWidth 64 : Word64) <<< 21) ||| ((d.l3.setWidth 64 : Word64) <<< 12) ||| (d.offset.setWidth 64 : Word64)

/-- The low 48 bits as a number. -/
theorem low48_toNat (va : Word64) : (va &&& 0x0000FFFFFFFFFFFF#64).toNat = va.toNat % 2 ^ 48 := by
  rw [BitVec.toNat_and]
  exact Nat.and_two_pow_sub_one_eq_mod va.toNat 48

/-- Where no index bit is shifted out, a shifted index is a multiple. -/
theorem index_shiftLeft_toNat (ix : Index) {k : Nat} (hk : k ≤ 55) :
    ((ix.setWidth 64 : Word64) <<< k).toNat = ix.toNat * 2 ^ k := by
  have hlt : ix.toNat * 2 ^ k < 2 ^ 64 :=
    calc ix.toNat * 2 ^ k < 2 ^ 9 * 2 ^ 55 := Nat.mul_lt_mul_of_lt_of_le ix.isLt (Nat.pow_le_pow_right (by decide) hk) (by decide)
      _ = 2 ^ 64 := by decide
  rw [BitVec.toNat_shiftLeft, BitVec.toNat_setWidth_of_le (by decide), Nat.shiftLeft_eq, Nat.mod_eq_of_lt hlt]

/-- Bits from `k` up and bits below `k` do not overlap: together they are their sum. -/
theorem toNat_or_of_disjoint {x y : Word64} {a b : Nat} (k : Nat) (hx : x.toNat = a) (hy : y.toNat = b) (ha : 2 ^ k ∣ a)
    (hb : b < 2 ^ k) : (x ||| y).toNat = a + b := by
  obtain ⟨c, rfl⟩ := ha
  rw [BitVec.toNat_or, hx, hy, Nat.two_pow_add_eq_or_of_lt hb]

/-- The assembled word as a number: the fields side by side, none overlapping. -/
theorem assemble_toNat (d : VaFields) :
    d.assemble.toNat =
      d.l0.toNat * 2 ^ 39 + d.l1.toNat * 2 ^ 30 + d.l2.toNat * 2 ^ 21 + d.l3.toNat * 2 ^ 12 + d.offset.toNat := by
  have h0 := index_shiftLeft_toNat d.l0 (k := 39) (by decide)
  have h1 := index_shiftLeft_toNat d.l1 (k := 30) (by decide)
  have h2 := index_shiftLeft_toNat d.l2 (k := 21) (by decide)
  have h3 := index_shiftLeft_toNat d.l3 (k := 12) (by decide)
  have hoff : (d.offset.setWidth 64 : Word64).toNat = d.offset.toNat := BitVec.toNat_setWidth_of_le (by decide)
  have h01 := toNat_or_of_disjoint 39 h0 h1 (by omega) (by omega)
  have h012 := toNat_or_of_disjoint 30 h01 h2 (by omega) (by omega)
  have h0123 := toNat_or_of_disjoint 21 h012 h3 (by omega) (by omega)
  exact toNat_or_of_disjoint 12 h0123 hoff (by omega) (by omega)

/-- The fields of an address are together its low 48 bits. -/
theorem assemble_decompose (va : Word64) : (decompose va).assemble = va &&& 0x0000FFFFFFFFFFFF#64 := by
  apply BitVec.eq_of_toNat_eq
  rw [assemble_toNat, low48_toNat, decompose_eq_slices]
  simp only [BitVec.extractLsb'_toNat, Nat.shiftRight_eq_div_pow]
  omega

/-- The fields of an assembled word are those it was assembled from. -/
theorem decompose_assemble (d : VaFields) : decompose d.assemble = d := by
  obtain ⟨l0, l1, l2, l3, offset⟩ := d
  rw [decompose_eq_slices]
  congr 1
  all_goals
    apply BitVec.eq_of_toNat_eq
    rw [BitVec.extractLsb'_toNat, assemble_toNat, Nat.shiftRight_eq_div_pow]
    dsimp only
    omega

/-- Addresses with the same fields are those with the same low 48 bits (R112). -/
theorem decompose_eq_iff (va va' : Word64) :
    decompose va = decompose va' ↔ va &&& 0x0000FFFFFFFFFFFF#64 = va' &&& 0x0000FFFFFFFFFFFF#64 := by
  rw [← assemble_decompose, ← assemble_decompose]
  exact ⟨congrArg _, fun h => by rw [← decompose_assemble (decompose va), h, decompose_assemble]⟩

/-! ### What a walk sees of its address (R112, R157) -/

/-- An idle walker takes no more of an address than its fields and whether the request is malformed. -/
theorem accept_eq_of_decompose_eq {s : State} {tb va va' : Word64} (hd : decompose va = decompose va')
    (hm : isMalformed s.params tb va = isMalformed s.params tb va') : s.accept tb va = s.accept tb va' := by
  rw [State.accept, State.accept, Walker.start, Walker.start, hm, hd]

/-! ### What the combinational operations present (R113, R127, R143, R38) -/

/-- A guarded meaning that answers a next state is its guard's branch. -/
theorem eq_next_of_guarded {c : Prop} [Decidable c] {o : Host.Outcome State Fault Refusal} {r : Refusal} {t : State}
    (h : (if c then o else .refused r) = .next t) : o = .next t := by
  by_cases hc : c
  · rwa [if_pos hc] at h
  · rw [if_neg hc] at h
    exact nomatch h

/-- The one output that a combinational operation drives: that of the port whose word it is. -/
inductive Drives (s : State) : Instr → State → Prop where
  | decomposer (va : Word64) (d : VaFields) : Drives s (.decompose va) (s.driveDecompose d)
  | classifier {i : Instr} {entry : Word64} {level : Level} (c : Classified)
      (hi : i = .classifyInvalid entry level ∨ i = .classifyBlock entry level ∨ i = .classifyTable entry level ∨
        i = .classifyPage entry level) : Drives s i (s.driveClassify c)
  | permissions (entry : Word64) (level : Level) (p : Perms) : Drives s (.decodePermissions entry level) (s.drivePerms p)
  | userExecLine (entry : AssertedEntry) (flag : Bool) :
      Drives s (.permUxnClear entry) (s.driveLines { s.ports.permLines with userExec := some flag })
  | privExecLine (entry : AssertedEntry) (flag : Bool) :
      Drives s (.permPxnClear entry) (s.driveLines { s.ports.permLines with privExec := some flag })
  | accessLines {i : Instr} {entry : AssertedEntry} (privRead privWrite userRead userWrite : Bool)
      (hi : i = .permAp0 entry ∨ i = .permAp1 entry ∨ i = .permAp2 entry ∨ i = .permAp3 entry) :
      Drives s i (s.driveLines (s.ports.permLines.access privRead privWrite userRead userWrite))

/-- A combinational operation that completes drives its own output and does nothing else. -/
theorem exec_combinational_drives {i : Instr} {s t : State} (hwalk : ∀ tb va, i ≠ .walk tb va)
    (hread : ∀ tb ix, i ≠ .readU64 tb ix) (h : exec i s = .next t) : Drives s i t := by
  cases i with
  | decompose va => cases h; exact .decomposer va _
  | classifyInvalid entry level => cases eq_next_of_guarded h; exact .classifier _ (.inl rfl)
  | classifyBlock entry level => cases eq_next_of_guarded h; exact .classifier _ (.inr (.inl rfl))
  | classifyTable entry level => cases eq_next_of_guarded h; exact .classifier _ (.inr (.inr (.inl rfl)))
  | classifyPage entry level => cases eq_next_of_guarded h; exact .classifier _ (.inr (.inr (.inr rfl)))
  | decodePermissions entry level => cases eq_next_of_guarded h; exact .permissions entry level _
  | permUxnClear entry => cases presentLines_next h; exact .userExecLine entry _
  | permPxnClear entry => cases presentLines_next h; exact .privExecLine entry _
  | permAp0 entry => cases presentLines_next (eq_next_of_guarded h); exact .accessLines _ _ _ _ (.inl rfl)
  | permAp1 entry => cases presentLines_next (eq_next_of_guarded h); exact .accessLines _ _ _ _ (.inr (.inl rfl))
  | permAp2 entry => cases presentLines_next (eq_next_of_guarded h); exact .accessLines _ _ _ _ (.inr (.inr (.inl rfl)))
  | permAp3 entry => cases presentLines_next (eq_next_of_guarded h); exact .accessLines _ _ _ _ (.inr (.inr (.inr rfl)))
  | walk tb va => exact absurd rfl (hwalk tb va)
  | readU64 tb ix => exact absurd rfl (hread tb ix)

end Machine

open Machine

/-- Settles O1: the operation presents `decompose`, whose fields are the slices. -/
theorem decomposeGivesTheFiveFields : Obligations.DecomposeGivesTheFiveFields := by
  intro va s
  rw [← decompose_eq_slices]
  rfl

/-- Settles O2: the fields lie side by side in the assembled word, which as a number is their sum. -/
theorem decomposeRoundTrip : Obligations.DecomposeRoundTrip :=
  ⟨assemble_decompose, fun l0 l1 l2 l3 offset => decompose_assemble ⟨l0, l1, l2, l3, offset⟩⟩

/-- Settles O3: by the round trip the fields are the low 48 bits, and an idle walker takes no more than them. -/
theorem upperAddressBitsIgnored : Obligations.UpperAddressBitsIgnored := by
  refine fun va va' => ⟨decompose_eq_iff va va', fun hlow tb s hf hm => ?_⟩
  rw [exec_walk_idle tb va s hf, exec_walk_idle tb va' s hf, accept_eq_of_decompose_eq ((decompose_eq_iff va va').2 hlow) hm]

/-- Settles O49: the operation drives one output, and that is the output of the sub-block whose operation it is. -/
theorem combinationalOperationsFrame : Obligations.CombinationalOperationsFrame := by
  intro i s t h hwalk hread
  cases exec_combinational_drives hwalk hread h with
  | decomposer va d => simp
  | classifier c hi => rcases hi with rfl | rfl | rfl | rfl <;> simp
  | permissions entry level p => simp
  | userExecLine entry flag => simp
  | privExecLine entry flag => simp
  | accessLines privRead privWrite userRead userWrite hi =>
    rcases hi with rfl | rfl | rfl | rfl <;> simp [PermLines.access]

end Sys2Proof
end

section
/-! PROOFS. EntryClassifier (spec/41_classify.md): when an entry is of each kind, what an output address holds, and what a walk keeps of
the entry it is answered with. -/

namespace Sys2Proof

namespace Machine

/-! ### When an entry is of each kind (R121 to R125) -/

/-- Levels 0 to 2 are those below 3 (R122, R123). -/
theorem level_lt_three_iff {level : Level} : level < 3 ↔ level.val ≤ 2 :=
  Nat.lt_succ_iff

theorem classify_eq_block_iff {entry : Word64} {level : Level} :
    classify entry level = .block ↔ level < 3 ∧ entryValid entry = true ∧ entryType entry = false := by
  refine ⟨fun h => ?_, fun ⟨hl, hv, ht⟩ => classify_block hv ht hl⟩
  obtain ⟨-, hc⟩ | ⟨hl, hv, ht, -⟩ | ⟨-, -, -, hc⟩ | ⟨-, -, hc⟩ := classify_cases entry level
  case inr.inl => exact ⟨hl, hv, ht⟩
  all_goals exact nomatch hc.symm.trans h

theorem classify_eq_table_iff {entry oa : Word64} {level : Level} :
    classify entry level = .table oa ↔
      level < 3 ∧ entryValid entry = true ∧ entryType entry = true ∧ oa = outputAddress entry := by
  refine ⟨fun h => ?_, fun ⟨hl, hv, ht, ho⟩ => ho ▸ classify_table hv ht hl⟩
  obtain ⟨-, hc⟩ | ⟨-, -, -, hc⟩ | ⟨hl, hv, ht, hc⟩ | ⟨-, -, hc⟩ := classify_cases entry level
  case inr.inr.inl => exact ⟨hl, hv, ht, Classified.table.inj (h.symm.trans hc)⟩
  all_goals exact nomatch hc.symm.trans h

theorem classify_eq_page_iff {entry oa : Word64} {level : Level} :
    classify entry level = .page oa ↔ level = 3 ∧ entryValid entry = true ∧ oa = outputAddress entry := by
  refine ⟨fun h => ?_, fun ⟨hl, hv, ho⟩ => by rw [hl, ho, classify_page hv]⟩
  obtain ⟨-, hc⟩ | ⟨-, -, -, hc⟩ | ⟨-, -, -, hc⟩ | ⟨hl, hv, hc⟩ := classify_cases entry level
  case inr.inr.inr => exact ⟨hl, hv, Classified.page.inj (h.symm.trans hc)⟩
  all_goals exact nomatch hc.symm.trans h

/-- An entry at level 3 is Invalid or a Page (R125). -/
theorem classify_three_kind (entry : Word64) :
    (classify entry 3).kind = .invalid ∨ (classify entry 3).kind = .page := by
  cases hv : entryValid entry with
  | false => rw [classify_invalid hv]; exact .inl rfl
  | true => rw [classify_page hv]; exact .inr rfl

/-! ### The output address (R126) -/

theorem outputAddress_low (entry : Word64) : (outputAddress entry).extractLsb' 0 12 = 0#12 := by
  apply BitVec.eq_of_getLsbD_eq
  intro i hi
  have : ¬ 12 ≤ i := by omega
  simp [outputAddress_bit, this]

theorem outputAddress_high (entry : Word64) : (outputAddress entry).extractLsb' 48 16 = 0#16 := by
  apply BitVec.eq_of_getLsbD_eq
  intro i hi
  simp [outputAddress_bit]

theorem outputAddress_middle (entry : Word64) :
    (outputAddress entry).extractLsb' 12 36 = entry.extractLsb' 12 36 := by
  apply BitVec.eq_of_getLsbD_eq
  intro i hi
  have : 12 + i < 48 := by omega
  simp [outputAddress_bit, this]

/-! ### The rows of the classifier as operations (R121 to R124) -/

/-- A row that the classifier's decode order reads presents what `classify` gives. -/
theorem exec_of_decodeEntry {entry : Word64} {level : Level} {i : Instr} {c : Classified} (s : State)
    (hi : decodeEntry entry level = i) (hc : classify entry level = c) : exec i s = .next (s.driveClassify c) :=
  hi ▸ hc ▸ exec_decodeEntry entry level s

/-! ### What a walk keeps of an entry (R159, R165) -/

/-- An answer of any kind writes the level's step, and no other, into the trace. -/
theorem answerOk_trace (w : Walker) (v : Word64) : (w.answerOk v).trace = w.trace.set w.level (w.stepFor v) := by
  unfold Walker.answerOk
  cases classify v w.level <;> rfl

/-- The raw entry stands in the trace at the level it was read at. -/
theorem answerOk_rawEntry {w : Walker} {level : Level} (hl : w.level = level) (v : Word64) :
    ((w.answerOk v).trace.get level).rawEntry = v := by
  rw [answerOk_trace, hl, quad_get_set_same, Walker.stepFor]

/-- A Page ends the walk with its address and the flags of the raw entry (R156). -/
theorem answerOk_result_page {w : Walker} {v : Word64} (hl : w.level = 3) (hv : entryValid v = true) :
    (w.answerOk v).result = .success (outputAddress v) (decodePermissions v) := by
  have hc : classify v w.level = .page (outputAddress v) := classify_eq_page_iff.2 ⟨hl, hv, rfl⟩
  simp only [Walker.answerOk, hc, Walker.endWalk_result]

end Machine

open Machine

/-- Settles O9: each kind's condition bounds the level, and a word with the kind's low bits meets it at every level left. -/
theorem kindsPossibleAtEachLevel : Obligations.KindsPossibleAtEachLevel := by
  intro level
  simp only [← level_lt_three_iff, classify_eq_block_iff, classify_eq_table_iff, classify_eq_page_iff]
  refine ⟨⟨0x0#64, classify_invalid rfl⟩, ⟨fun ⟨_, hl, _⟩ => hl, fun hl => ⟨0x1#64, hl, rfl, rfl⟩⟩,
    ⟨fun ⟨_, _, hl, _⟩ => hl, fun hl => ⟨0x3#64, _, hl, rfl, rfl, rfl⟩⟩,
    ⟨fun ⟨_, _, hl, _⟩ => hl, fun hl => ⟨0x1#64, _, hl, rfl, rfl⟩⟩, ?_⟩
  rintro rfl entry
  exact classify_three_kind entry

/-- Settles O10: a Table's or Page's address is the masked entry, whose three slices are the mask's. -/
theorem outputAddressShape : Obligations.OutputAddressShape := by
  intro entry level oa h
  have ho : oa = outputAddress entry := by
    obtain h | h := h
    · obtain ⟨-, -, -, ho⟩ := classify_eq_table_iff.1 h
      exact ho
    · obtain ⟨-, -, ho⟩ := classify_eq_page_iff.1 h
      exact ho
  subst ho
  exact ⟨outputAddress_low entry, outputAddress_high entry, outputAddress_middle entry⟩

/-- Settles O4: bit 0 is tested before anything else. -/
theorem invalidWhenBitZeroClear : Obligations.InvalidWhenBitZeroClear := by
  intro entry level s hv
  have hc : classify entry level = .invalid := classify_invalid hv
  exact ⟨hc, exec_of_decodeEntry s (decodeEntry_invalid ((isInvalidEntry_iff entry).2 hv)) hc⟩

/-- Settles O5: the row presents the bare kind, and an answer of any kind keeps its raw entry. -/
theorem blockAtUpperLevels : Obligations.BlockAtUpperLevels := by
  intro entry level s hl hv ht
  have hrow : level < 3 ∧ entryValid entry = true ∧ entryType entry = false := ⟨level_lt_three_iff.2 hl, hv, ht⟩
  have hc : classify entry level = .block := classify_eq_block_iff.2 hrow
  exact ⟨hc, exec_of_decodeEntry s (decodeEntry_block ((isBlockEntry_iff entry level).2 hrow)) hc,
    fun hlevel => answerOk_rawEntry hlevel entry⟩

/-- Settles O6: the row presents the masked entry. -/
theorem tableAtUpperLevels : Obligations.TableAtUpperLevels := by
  intro entry level s hl hv ht
  have hl : level < 3 := level_lt_three_iff.2 hl
  have hc : classify entry level = .table (outputAddress entry) := classify_table hv ht hl
  exact ⟨hc, exec_of_decodeEntry s (decodeEntry_table ((isTableEntry_iff entry level).2 ⟨hl, hv, ht⟩)) hc⟩

/-- Settles O7: at level 3 bit 0 alone makes the Page, and the walk ends with the flags of the raw entry, which it keeps. -/
theorem pageAtLevelThree : Obligations.PageAtLevelThree := by
  intro entry s hv
  have hc : classify entry 3 = .page (outputAddress entry) := classify_page hv
  exact ⟨hc, exec_of_decodeEntry s (decodeEntry_page ((isPageEntry_iff entry 3).2 ⟨rfl, hv⟩)) hc,
    fun hl => ⟨answerOk_rawEntry hl entry, answerOk_result_page hl hv⟩⟩

end Sys2Proof
end

section
/-! PROOFS. PermissionDecoder (spec/42_permissions.md): each row of the output lines on a Page entry, the operation's precondition, when a
walk has permissions to give, and which sets of flags there are. -/

namespace Sys2Proof

namespace Machine

/-! ### The output lines of a Page entry (R136 to R141) -/

theorem isPageEntry_three {entry : Word64} (hv : entryValid entry = true) : isPageEntry entry 3 = true :=
  (isPageEntry_iff entry 3).2 ⟨rfl, hv⟩

/-- A row of the access lines presents its own four flags on a Page entry that has the row's AP value. -/
theorem exec_apRow {i : Instr} {s : State} {entry : AssertedEntry} {ap : BitVec 2} {l : PermLines} {name : String}
    (hp : isPageEntry entry.word entry.level = true) (hap : entryAp entry.word = ap)
    (hexec : exec i s = if entryAp entry.word = ap then presentLines entry l s else .refused (.rowMismatch name)) :
    exec i s = .next (s.driveLines l) :=
  (hexec.trans (if_pos hap)).trans (presentLines_page hp)

/-- The row that the access lines decode presents the read and write flags of `decode_permissions`. -/
theorem exec_decodeAp {entry : AssertedEntry} (hp : isPageEntry entry.word entry.level = true) (s : State) :
    exec (decodeAp entry) s = .next (s.driveLines (s.ports.permLines.access true (privWriteFlag entry.word)
      (userReadFlag entry.word) (userWriteFlag entry.word))) := by
  have hfour : ∀ ap : BitVec 2, ap = 0 ∨ ap = 1 ∨ ap = 2 ∨ ap = 3 := by decide
  rw [privWriteFlag, userReadFlag, userWriteFlag]
  obtain h | h | h | h := hfour (entryAp entry.word)
  · rw [decodeAp_ap0 h, h]; exact exec_apRow hp h rfl
  · rw [decodeAp_ap1 h, h]; exact exec_apRow hp h rfl
  · rw [decodeAp_ap2 h, h]; exact exec_apRow hp h rfl
  · rw [decodeAp_ap3 h, h]; exact exec_apRow hp h rfl

/-! ### Only Page entries have permissions (R144, R168) -/

/-- A well-formed call of `decode_permissions`, whole or line by line, is refused exactly when its precondition fails. -/
theorem exec_notPageKind_iff {i : Instr} (hwf : i.wf = true) (s : State) :
    exec i s = .refused .notPageKind ↔ ¬ pageAsserted i := by
  cases exec_ending i s with
  | completes t _ hpage h => simp [hpage, h]
  | offPage _ hpage h => simp [hpage, h]
  | illFormed name hill h => exact nomatch hill.symm.trans hwf

/-- Of the ends of an answer Ok only a Page's is a Success, and it carries the flags of the entry read (R156, R168). -/
theorem answered_success {w : Walker} {v address : Word64} {perms : Perms} (hdone : (w.answered (.ok v)).fsm = .done)
    (hresult : (w.answered (.ok v)).result = .success address perms) :
    w.level = 3 ∧ entryValid v = true ∧ perms = decodePermissions v := by
  obtain ⟨_, ⟨⟩, -⟩ | ⟨_, ⟨⟩, -, -, h⟩ | ⟨_, ⟨⟩, -, -, -, -, h⟩ | ⟨_, ⟨⟩, -, -, -, -, h⟩ | ⟨_, ⟨⟩, hl, hv, -, h⟩ :=
    answered_cases w (.ok v)
  case inr.inr.inr.inr =>
    rw [h, Walker.endWalk_result] at hresult
    cases hresult
    exact ⟨hl, hv, rfl⟩
  case inr.inr.inr.inl =>
    rw [h, Walker.follow_fsm] at hdone
    exact nomatch hdone
  all_goals
    rw [h, Walker.endWalk_result] at hresult
    exact nomatch hresult

/-! ### The sets of flags there are (R142) -/

/-- A Page entry whose AP, PXN and UXN bits grant the writes of `p` to the privileged context, its reads to the unprivileged one, and
its executions to both. -/
def pageEntryGranting (p : Perms) : Word64 :=
  0x1#64 ||| (BitVec.ofBool p.userRead).setWidth 64 <<< 6 ||| (BitVec.ofBool (!p.privWrite)).setWidth 64 <<< 7 |||
    (BitVec.ofBool (!p.privExec)).setWidth 64 <<< 53 ||| (BitVec.ofBool (!p.userExec)).setWidth 64 <<< 54

/-- Four flags are free; PRIV_READ and USER_WRITE follow. -/
theorem decodePermissions_pageEntryGranting (p : Perms) :
    decodePermissions (pageEntryGranting p) = { p with privRead := true, userWrite := p.userRead && p.privWrite } := by
  rw [decodePermissions_bits]
  simp [pageEntryGranting]

/-- A set of flags is one of an entry exactly when it has PRIV_READ, and USER_WRITE with USER_READ and PRIV_WRITE both. -/
theorem decodePermissions_eq_iff (p : Perms) :
    (∃ entry, decodePermissions entry = p) ↔ p.privRead = true ∧ p.userWrite = (p.userRead && p.privWrite) := by
  constructor
  · rintro ⟨entry, rfl⟩
    rw [decodePermissions_bits]
    exact ⟨rfl, rfl⟩
  · rintro ⟨hread, hwrite⟩
    exact ⟨pageEntryGranting p, by rw [decodePermissions_pageEntryGranting, ← hread, ← hwrite]⟩

/-- A PERMS word is that of some flags exactly when they are the flags it unpacks to (R94). -/
theorem pack_eq_iff (p : Perms) (b : BitVec 6) : p.pack = b ↔ p = Perms.unpack b :=
  ⟨fun h => by rw [← h, unpack_pack], fun h => by rw [h, pack_unpack]⟩

end Machine

open Machine

/-- Settles O16: the two execute rows and the row of the AP value drive two lines and four, with the flags of the entry. -/
theorem outputLinesMakeUpThePermissions : Obligations.OutputLinesMakeUpThePermissions := by
  intro entry s hv
  have hp : isPageEntry entry 3 = true := isPageEntry_three hv
  exact ⟨.permUxnClear ⟨entry, 3⟩, .permPxnClear ⟨entry, 3⟩, decodeAp ⟨entry, 3⟩,
    decode_encode (i := .permUxnClear ⟨entry, 3⟩) rfl, decode_encode (i := .permPxnClear ⟨entry, 3⟩) rfl,
    decode_accessLines ⟨entry, 3⟩, _, _, presentLines_page hp, presentLines_page hp, exec_decodeAp hp _⟩

/-- Settles O17: the refusal is that of the precondition, and a walk's Success is the end at a Page. -/
theorem permissionsOnlyForPageEntries : Obligations.PermissionsOnlyForPageEntries := by
  refine ⟨fun i entry s hentry hwf => ?_, fun w entry address perms => answered_success⟩
  have hpage : pageAsserted i ↔ entry.level = 3 ∧ entryValid entry.word = true :=
    (pageAsserted_iff hentry).trans (isPageEntry_iff entry.word entry.level)
  exact (exec_notPageKind_iff hwf s).trans hpage.not

/-- Settles O18: the flags are bits 6, 7, 53 and 54, and of the 64 PERMS words the listed ones have PRIV_READ, and USER_WRITE with
USER_READ and PRIV_WRITE both. -/
theorem permissionSetsArePossibleSixteen : Obligations.PermissionSetsArePossibleSixteen := by
  refine ⟨fun entry => ?_, fun b => ?_⟩
  · rw [decodePermissions_bits]
    refine ⟨rfl, rfl, rfl, rfl, fun h => ?_, fun _ => rfl⟩
    exact Bool.and_eq_true_iff.1 h
  · simp only [pack_eq_iff, decodePermissions_eq_iff, Perms.unpack]
    revert b
    decide

/-- Settles O12: the precondition holds, and the flags presented are the bits. -/
theorem decodePermissionsGivesSixFlags : Obligations.DecodePermissionsGivesSixFlags := by
  intro entry s hv
  rw [← decodePermissions_bits]
  exact if_pos (isPageEntry_three hv)

/-- Settles O13: the row drives the flag, which is bit 54 inverted by definition. -/
theorem userExecFollowsUxn : Obligations.UserExecFollowsUxn :=
  fun _ _ => ⟨fun hv => presentLines_page (entry := ⟨_, 3⟩) (isPageEntry_three hv), rfl⟩

/-- Settles O14: the row drives the flag, which is bit 53 inverted by definition. -/
theorem privExecFollowsPxn : Obligations.PrivExecFollowsPxn :=
  fun _ _ => ⟨fun hv => presentLines_page (entry := ⟨_, 3⟩) (isPageEntry_three hv), rfl⟩

/-- Settles O15: bits 7:6 are the AP field, and the row of its value drives the four lines. -/
theorem accessPermissionTable : Obligations.AccessPermissionTable := by
  intro entry s hv
  have hp : isPageEntry entry 3 = true := isPageEntry_three hv
  rw [← entryAp_eq_slice]
  exact ⟨fun h => exec_apRow (entry := ⟨entry, 3⟩) hp h rfl, fun h => exec_apRow (entry := ⟨entry, 3⟩) hp h rfl,
    fun h => exec_apRow (entry := ⟨entry, 3⟩) hp h rfl, fun h => exec_apRow (entry := ⟨entry, 3⟩) hp h rfl⟩

end Sys2Proof
end

section
/-! PROOFS. WalkEngine (spec/43_walk.md): each transition as a step, that there are no others, what an answer does to the level, the
reads of an ended walk, and whole walks against the procedure of R151. -/

namespace Sys2Proof

namespace Machine

/-! ### The steps of a walk (R158 to R161) -/

/-- A turn other than `proceed` and `operate` presents no word. -/
theorem step_of_wordless_turn {s : State} {u : Turn} (h : s.turn = u) (hproceed : u ≠ .proceed)
    (hoperate : ∀ p bs, u ≠ .operate p bs) : step s = s.afterTurn.act u := by
  cases hf : s.fetch with
  | none => rw [step_of_no_fetch s hf, h]
  | some word =>
    obtain hturn | ⟨hturn, -⟩ | ⟨hturn, -⟩ := fetch_some_turn hf
    · exact absurd (h.symm.trans hturn) (hoperate _ _)
    all_goals exact absurd (h.symm.trans hturn) hproceed

/-- On `proceed` no word is presented without a request in IDLE, or in WAIT without a reader attached. -/
theorem step_of_wordless_proceed {s : State} (h : s.turn = .proceed) (hidle : s.walker.fsm = .idle → s.ports.pending = [])
    (hwait : s.walker.fsm = .wait → s.params.readerAttached = false) : step s = s.afterTurn.act .proceed := by
  cases hf : s.fetch with
  | none => rw [step_of_no_fetch s hf, h]
  | some word =>
    obtain hturn | ⟨-, hw, _, _, hp, -⟩ | ⟨-, hw, ha, -⟩ := fetch_some_turn hf
    · exact nomatch h.symm.trans hturn
    · exact nomatch (hidle hw).symm.trans hp
    · exact nomatch (hwait hw).symm.trans ha

/-- ISSUE. -/
theorem step_issue {s : State} (h : s.turn = .proceed) (hw : s.walker.fsm = .issue) :
    step s = .next s.afterTurn.issueRead := by
  rw [step_of_wordless_proceed h (by simp [hw]) (by simp [hw])]
  exact act_proceed_issue hw

/-- DELIVER. -/
theorem step_deliver {s : State} (h : s.turn = .proceed) (hw : s.walker.fsm = .done) :
    step s = .next s.afterTurn.deliver := by
  rw [step_of_wordless_proceed h (by simp [hw]) (by simp [hw])]
  exact act_proceed_done hw

/-- ANSWER-OK and ANSWER-ERR, the answer a turn of the schedule. -/
theorem step_answer {s : State} {r : ReadResult} (h : s.turn = .answer r) (hw : s.walker.fsm = .wait) :
    step s = .next ((s.afterTurn.driveReader (r.reported s.params.errorType)).withWalker
      (s.walker.answered (r.reported s.params.errorType))) := by
  rw [step_of_wordless_turn h nofun nofun, State.act, takeAnswer_wait s.afterTurn _ hw]
  rfl

/-- Of the state, the reader's answer depends on the memory and the parameters. -/
theorem readU64_congr {s s' : State} (hmem : s'.mem = s.mem) (hparams : s'.params = s.params) (tb : Word64) (ix : Index) :
    s'.readU64 tb ix = s.readU64 tb ix := by
  rw [State.readU64, State.readU64, hmem, hparams]

@[simp] theorem readU64_fetched (s : State) (tb : Word64) (ix : Index) : s.fetched.readU64 tb ix = s.readU64 tb ix :=
  readU64_congr (fetched_mem s) (fetched_params s) tb ix

/-- ANSWER-OK and ANSWER-ERR, the answer the attached reader's. -/
theorem step_read {s : State} (h : s.turn = .proceed) (hw : s.walker.fsm = .wait) (ha : s.params.readerAttached = true) :
    step s = .next ((s.fetched.driveReader (s.readU64 s.walker.curTable s.walker.curIndex)).withWalker
      (s.walker.answered (s.readU64 s.walker.curTable s.walker.curIndex))) := by
  have hawaits : s.fetched.walker.awaits s.walker.curTable s.walker.curIndex = true := by
    rw [fetched_walker]; exact awaits_self s.walker hw
  rw [step_of_fetch s (fetch_read h hw ha) (decode_read _ _), exec_readU64_awaited _ _ _ hawaits, readU64_fetched,
    fetched_walker]

end Machine

open Machine

/-- Settles O19: ACCEPT's two branches, the latched indices being the slices of the address. -/
theorem acceptTransition : Obligations.AcceptTransition := by
  intro tb va s hidle
  rw [exec_walk_idle tb va s hidle]
  refine ⟨fun hm => ?_, fun hm => ?_⟩
  · rw [accept_malformed s tb va hm]
    rfl
  · rw [accept_wellformed s tb va hm, Walker.start, decompose_eq_slices]
    rfl

/-- Settles O21: the step is ISSUE. -/
theorem issueTransition : Obligations.IssueTransition :=
  fun _ hturn hw => step_issue hturn hw

/-- Settles O22: the step is ANSWER-OK, which splits by the classification of the entry. -/
theorem answerOkTransition : Obligations.AnswerOkTransition := by
  intro s v hturn hw
  rw [step_answer hturn hw, reported_ok, Walker.answered, Walker.answerOk, Walker.stepFor]
  cases classify v s.walker.level <;> rfl

/-- Settles O23: the step is ANSWER-ERR, of the element that the token names. -/
theorem answerErrTransition : Obligations.AnswerErrTransition :=
  fun _ _ hturn hw => step_answer hturn hw

/-- Settles O24: the step is DELIVER. -/
theorem deliverTransition : Obligations.DeliverTransition :=
  fun _ hturn hw => step_deliver hturn hw

/-- Settles O28: neither turn presents a word, and neither acts, an answer because the walker is not in WAIT. -/
theorem strayAnswersChangeNothing : Obligations.StrayAnswersChangeNothing := by
  refine fun s => ⟨fun r hturn hw => ?_, fun r hturn => step_of_wordless_turn hturn nofun nofun⟩
  rw [step_of_wordless_turn hturn nofun nofun, State.act, takeAnswer_other s.afterTurn _ hw]
  rfl

/-! ### What the walker does by itself (R162, R239) -/

namespace Machine

/-- The walker waits for a neighbour who does not act: for an answer with no reader attached, or for a request that nobody presents. -/
def State.Hangs (s : State) : Prop :=
  (s.walker.fsm = .wait ∧ s.params.readerAttached = false) ∨ (s.walker.fsm = .idle ∧ s.ports.pending = [])

theorem step_hold {s : State} (h : s.turn = .hold) : step s = .next s.afterTurn :=
  step_of_wordless_turn h nofun nofun

theorem step_proceed_of_hangs {s : State} (h : s.turn = .proceed) (hs : s.Hangs) : step s = .next s.afterTurn := by
  obtain ⟨hw, hnone⟩ | ⟨hw, hnone⟩ := hs
  all_goals
    rw [step_of_wordless_proceed h (by simp [hw, hnone]) (by simp [hw, hnone])]
    exact act_proceed_other (s := s.afterTurn) (by simp [hw]) (by simp [hw])

/-- A schedule of `proceed` and `hold` only has one of them as its first turn, and past its end `proceed`. -/
theorem turn_of_proceed_or_hold {s : State} {k : Nat} (h : ∀ u ∈ s.schedule.take (k + 1), u = .proceed ∨ u = .hold) :
    s.turn = .proceed ∨ s.turn = .hold := by
  unfold State.turn
  split
  · exact .inl rfl
  · next u rest hs => exact h u (by simp [hs])

/-- However often the walker is left to itself, or nobody acts, it goes on waiting. -/
theorem run_of_hangs (k : Nat) {s : State} (hs : s.Hangs) (h : ∀ u ∈ s.schedule.take k, u = .proceed ∨ u = .hold) :
    s.run k = .next (s.withSchedule (s.schedule.drop k)) := by
  induction k generalizing s with
  | zero => rfl
  | succ k ih =>
    have hstep : step s = .next s.afterTurn :=
      (turn_of_proceed_or_hold h).elim (step_proceed_of_hangs · hs) step_hold
    have hrest : ∀ u ∈ s.afterTurn.schedule.take k, u = .proceed ∨ u = .hold := fun u hu => h u (by
      rw [State.afterTurn_schedule, ← List.drop_one, List.take_drop] at hu
      exact List.mem_of_mem_drop (Nat.add_comm k 1 ▸ hu))
    rw [run_succ k s _ hstep, ih (s := s.afterTurn) hs hrest, State.afterTurn_schedule, List.drop_tail]
    rfl

end Machine

/-- Settles O29: a turn on which nobody acts, and the turns on which the walker waits for a neighbour who does not. -/
theorem waitHangsWithoutAnAnswer : Obligations.WaitHangsWithoutAnAnswer := by
  refine fun s => ⟨step_hold, fun hs => ⟨fun rest hrest => ?_, fun k hk => run_of_hangs k hs hk⟩⟩
  rw [step_proceed_of_hangs (by rw [State.turn, hrest]) hs, State.afterTurn, hrest]
  rfl

/-- Settles O30: a step is an instruction, which is fetched on its own port and changes the registers only as ACCEPT or as the answer to
the outstanding read, or it is a turn without a word. -/
theorem noOtherTransitions : Obligations.NoOtherTransitions := by
  intro s t hstep
  obtain ⟨p, bs, i, hfetch, hdecode, hexec⟩ | ⟨-, hact⟩ := step_cases s t hstep
  · obtain ⟨hport, -, -⟩ := encodeOfDecode p bs i hdecode
    obtain (⟨d, rfl⟩ | ⟨c, rfl⟩ | ⟨o, rfl⟩ | ⟨l, rfl⟩) |
      ⟨tb, va, rfl, ⟨hw, rfl⟩ | ⟨-, rfl⟩⟩ | ⟨tb, ix, rfl, ⟨hw, htb, hix, rfl⟩ | ⟨-, rfl⟩⟩ := exec_cases i _ t hexec
    case inl.inr.inl.inl =>
      cases hport
      refine .inr (.inl ⟨fetched_walker s ▸ hw, bs, tb, va, hfetch, hdecode, ?_⟩)
      rw [State.accept, fetched_params, fetched_walker]
      split <;> rfl
    case inl.inr.inr.inl =>
      cases hport
      rw [fetched_walker] at hw htb hix
      subst htb hix
      refine .inr (.inr (.inr (.inr (.inl ⟨hw, bs, hfetch, hdecode, ?_⟩))))
      rw [readU64_fetched, fetched_walker]
      rfl
    all_goals exact .inl (fetched_walker s)
  · obtain rfl | ⟨hu, hw, rfl⟩ | ⟨hu, hw, rfl⟩ | ⟨r, hu, hw, rfl⟩ | ⟨a, bytes, -, rfl⟩ | ⟨a, count, -, rfl⟩ |
      ⟨k, o, hu, ho, rfl⟩ | ⟨hu, rfl⟩ := act_cases _ t _ hact
    · exact .inl rfl
    · exact .inr (.inr (.inl ⟨hw, hu, rfl⟩))
    · exact .inr (.inr (.inr (.inr (.inr (.inl ⟨hw, hu, rfl⟩)))))
    · exact .inr (.inr (.inr (.inl ⟨hw, r, hu, rfl⟩)))
    · exact .inl rfl
    · exact .inl rfl
    · exact .inr (.inr (.inr (.inr (.inr (.inr (.inr ⟨k, o, hu, ho, rfl⟩))))))
    · exact .inr (.inr (.inr (.inr (.inr (.inr (.inl ⟨hu, rfl, rfl⟩))))))

/-- Settles O31: of the five things an answer can do, following a Table is the one that does not end the walk, and a Table is below
level 3. -/
theorem levelRisesByOneOrTheWalkEnds : Obligations.LevelRisesByOneOrTheWalkEnds := by
  intro w r
  obtain ⟨e, -, h⟩ | ⟨v, -, -, -, h⟩ | ⟨v, -, -, -, -, -, h⟩ | ⟨v, -, hl, -, -, -, h⟩ | ⟨v, -, -, -, -, h⟩ :=
    answered_cases w r <;> rw [h]
  case inr.inr.inr.inl => exact .inr ⟨rfl, level_lt_three_iff.1 hl, level_succ_val hl⟩
  all_goals exact .inl ⟨rfl, rfl⟩

/-! ### The reads of an ended walk (R164, R166) -/

namespace Machine

theorem steps_length {w : Walker} (h : w.countInv) : w.steps.length = w.traceLen.toNat := by
  obtain ⟨hle, -⟩ := h
  simpa [Walker.steps, Quad.toList] using hle

theorem stepSlots_length {w : Walker} (h : w.countInv) : w.stepSlots.length = w.traceLen.toNat := by
  rw [Walker.stepSlots, List.length_map, steps_length h]

theorem sent_of_done {w : Walker} {p : Ports} (hw : w.fsm = .done) (hsent : sentAgrees w p) :
    p.sent = w.stepSlots ++ w.result.failedRead := by
  simpa only [sentAgrees, hw] using hsent

/-- With a failed read at a level, the step of each level above it was a Table: by the next step, or for the last one by the result. -/
theorem table_of_readFailure {w : Walker} {l : Level} {tb : Word64} {ix : Index} {e : ReadError} (hchain : w.chainInv)
    (hagrees : w.resultAgrees) (hr : w.result = .readFailure l tb ix e) {i : Level} (hi : i.val < l.val) :
    (w.trace.get i).kind = .table := by
  simp only [Walker.resultAgrees, hr] at hagrees
  obtain ⟨hlen, -, hlast⟩ := hagrees
  by_cases h : l.val = i.val + 1
  · exact (hlast i h).1
  · have hj : i.val + 1 < 4 := by omega
    exact (hchain i ⟨i.val + 1, hj⟩ rfl (by simp only [Walker.counts]; omega)).1

end Machine

/-- Settles O36: the step keeps the invariant, which in DONE counts the reads by the steps and the failed read, and the steps by the
result. -/
theorem endedWalkMadeTheReadsOfItsTrace : Obligations.EndedWalkMadeTheReadsOfItsTrace := by
  intro s t hinv hstep hdone
  obtain ⟨hcount, -, -, hchain, hresult, hsent⟩ := inv_walker (stepKeepsTheInvariant s t hinv hstep)
  have hagrees := hresult hdone
  have hsteps := steps_length hcount
  have hslots := stepSlots_length hcount
  refine ⟨hsteps, ?_⟩
  unfold Walker.resultAgrees at hagrees
  rw [sent_of_done hdone hsent]
  revert hagrees
  cases hr : t.walker.result with
  | success address perms =>
    rintro ⟨hlen, hkind, -⟩
    simpa [WalkResult.failedRead, hsteps, hslots, hlen] using hkind
  | failure l =>
    rintro ⟨hlen, hkind⟩
    simpa [WalkResult.failedRead, hsteps, hslots, hlen] using hkind
  | stopped l =>
    rintro ⟨hlen, hle, hkind⟩
    simpa [WalkResult.failedRead, hsteps, hslots, hlen] using And.intro hle hkind
  | readFailure l tb ix e =>
    rintro ⟨hlen, -⟩
    simpa [WalkResult.failedRead, hsteps, hslots, hlen] using fun i => table_of_readFailure (i := i) hchain (hresult hdone) hr
  | malformedArgument =>
    intro hlen
    simp [WalkResult.failedRead, Walker.stepSlots, steps_of_no_traceLen hlen]

/-! ### The rest of a walk against the rest of the procedure (R151, R170) -/

namespace Machine

/-- What the procedure of R151 still does from a walker's registers: the levels from its own on, its table and the steps so far. -/
def Walker.procedure (w : Walker) (read : Level → Word64 → Index → ReadResult) : Option (WalkResult × List WalkStep) :=
  procedureFrom read w.idx (([0, 1, 2, 3] : List Level).drop w.level.val) w.curTable w.stepsBelow

@[simp] theorem endWalk_steps (w : Walker) (outcome : WalkResult) : (w.endWalk outcome).steps = w.steps := rfl

theorem levels_drop (l : Level) : ([0, 1, 2, 3] : List Level).drop l.val = l :: ([0, 1, 2, 3] : List Level).drop (l.val + 1) := by
  match l with
  | 0 => rfl
  | 1 => rfl
  | 2 => rfl
  | 3 => rfl

/-- An answer to the walker is the procedure's answer at its level: either ends with the same result and steps, or both go on alike. -/
theorem procedure_answered {w : Walker} {read : Level → Word64 → Index → ReadResult} {r : ReadResult}
    (hr : read w.level w.curTable w.curIndex = r) (hsteps : w.steps = w.stepsBelow) :
    ((w.answered r).fsm = .done → w.procedure read = some ((w.answered r).result, (w.answered r).steps)) ∧
    ((w.answered r).fsm = .issue →
      (w.answered r).steps = (w.answered r).stepsBelow ∧ w.procedure read = (w.answered r).procedure read) := by
  rw [Walker.curIndex] at hr
  obtain ⟨e, rfl, h⟩ | ⟨v, rfl, -, hc, h⟩ | ⟨v, rfl, -, -, -, hc, h⟩ | ⟨v, rfl, hl, -, -, hc, h⟩ | ⟨v, rfl, -, -, hc, h⟩ :=
    answered_cases w r <;> rw [h]
  case inl =>
    refine ⟨fun _ => ?_, nofun⟩
    rw [Walker.procedure, levels_drop, procedureFrom, hr, ← hsteps]
    rfl
  case inr.inr.inr.inl =>
    refine ⟨nofun, fun _ => ⟨(appendStep_steps w _).trans (stepsBelow_follow w _ _ hl).symm, ?_⟩⟩
    rw [Walker.procedure, levels_drop, procedureFrom, Walker.procedure, stepsBelow_follow w _ _ hl, hr]
    simp [hc, level_succ_val hl, Walker.stepFor, Walker.curIndex]
  all_goals
    refine ⟨fun _ => ?_, nofun⟩
    rw [Walker.procedure, levels_drop, procedureFrom, hr]
    simp [hc, Walker.stepFor, Walker.curIndex, appendStep_steps]

/-- With the same slot to read and the trace as it was, waiting for an answer and being about to ask for it come to the same. -/
theorem answered_of_wait (w : Walker) (r : ReadResult) : ({ w with fsm := .wait } : Walker).answered r = w.answered r := by
  cases r with
  | err e => rfl
  | ok v =>
    simp only [Walker.answered, Walker.answerOk]
    cases classify v w.level <;> rfl

/-! ### Runs to the end of a walk (R163, R170) -/

/-- A run after a run. -/
theorem run_add {a : Nat} (b : Nat) {s t : State} (h : s.run a = .next t) : s.run (a + b) = t.run b := by
  induction a generalizing s with
  | zero =>
    cases h
    rw [Nat.zero_add]
  | succ a ih =>
    obtain ⟨u, hstep, hrun⟩ := run_succ_inv h
    rw [Nat.succ_add, run_succ _ s u hstep, ih hrun]

theorem run_one {s t : State} (h : step s = .next t) : s.run 1 = .next t := run_succ 0 s t h

theorem run_two {s t u : State} (h : step s = .next t) (h' : step t = .next u) : s.run 2 = .next u :=
  (run_succ 1 s t h).trans (run_one h')

/-- From a state with `P` the two steps of a level, ISSUE and an answer, lead to a state with `P` again, and the answer is what `read`
gives for the slot. -/
def AnswersEachLevel (P : State → Prop) (read : Level → Word64 → Index → ReadResult) : Prop :=
  ∀ s, P s → s.walker.fsm = .issue → ∃ u, s.run 2 = .next u ∧ P u ∧
    u.walker = s.walker.answered (read s.walker.level s.walker.curTable s.walker.curIndex)

/-- A walk in ISSUE with `m` levels still to visit is in DONE after two steps for each level visited, and where its trace holds the levels
visited, it ends as the procedure does. -/
theorem run_to_done {P : State → Prop} {read : Level → Word64 → Index → ReadResult} (hP : AnswersEachLevel P read) (m : Nat)
    {s : State} (hm : s.walker.level.val + m = 4) (hs : P s) (hw : s.walker.fsm = .issue) :
    ∃ n t, n ≤ m ∧ s.run (2 * n) = .next t ∧ P t ∧ t.walker.fsm = .done ∧
      (s.walker.steps = s.walker.stepsBelow → s.walker.procedure read = some (t.walker.result, t.walker.steps)) := by
  induction m generalizing s with
  | zero => exact absurd hm s.walker.level.isLt.ne
  | succ m ih =>
    obtain ⟨u, hrun, hu, hanswered⟩ := hP s hs hw
    have hprocedure := procedure_answered (w := s.walker) (read := read) rfl
    have hends := levelRisesByOneOrTheWalkEnds s.walker (read s.walker.level s.walker.curTable s.walker.curIndex)
    rw [← hanswered] at hprocedure hends
    obtain ⟨hdone, -⟩ | ⟨hissue, -, hlevel⟩ := hends
    · exact ⟨1, u, by omega, hrun, hu, hdone, fun hsteps => (hprocedure hsteps).1 hdone⟩
    · obtain ⟨n, t, hn, hrun', ht, hdone, hrest⟩ := ih (by omega) hu hissue
      refine ⟨n + 1, t, by omega, ?_, ht, hdone, fun hsteps => ?_⟩
      · rw [Nat.mul_succ, Nat.add_comm, run_add (2 * n) hrun, hrun']
      · obtain ⟨hbelow, heq⟩ := (hprocedure hsteps).2 hissue
        rw [heq, hrest hbelow]

/-! ### Whole walks (R151, R157) -/

theorem walkProcedure_malformed {p : Params} {tb va : Word64} (h : isMalformed p tb va = true)
    (read : Level → Word64 → Index → ReadResult) : walkProcedure p read tb va = some (.malformedArgument, []) := by
  simp [walkProcedure, h]

/-- ACCEPT starts the procedure: at level 0 nothing of it is done. -/
theorem walkProcedure_start {p : Params} {tb va : Word64} (h : isMalformed p tb va = false)
    (read : Level → Word64 → Index → ReadResult) (w : Walker) :
    walkProcedure p read tb va = (w.start (p.operandBase tb) va).procedure read := by
  simp only [walkProcedure, h]
  rfl

/-- A walk accepted in IDLE ends as the procedure does, after two steps for each level visited. -/
theorem accept_run_to_done {P : State → Prop} {read : Level → Word64 → Index → ReadResult} (hP : AnswersEachLevel P read)
    {s : State} {tb va : Word64} (hs : P (s.accept tb va)) :
    ∃ n t, n ≤ 4 ∧ (s.accept tb va).run (2 * n) = .next t ∧ P t ∧ t.walker.fsm = .done ∧
      walkProcedure s.params read tb va = some (t.walker.result, t.walker.steps) := by
  cases hm : isMalformed s.params tb va with
  | true =>
    refine ⟨0, s.accept tb va, by omega, rfl, hs, ?_⟩
    rw [accept_malformed s tb va hm, walkProcedure_malformed hm]
    exact ⟨rfl, by rw [State.withWalker_walker, steps_of_no_traceLen rfl]; rfl⟩
  | false =>
    rw [accept_wellformed s tb va hm] at hs ⊢
    obtain ⟨n, t, hn, hrun, ht, hdone, hprocedure⟩ := run_to_done hP 4 rfl hs rfl
    refine ⟨n, t, hn, hrun, ht, hdone, ?_⟩
    rw [walkProcedure_start hm, ← hprocedure (steps_of_no_traceLen rfl)]
    rfl

/-! ### Answers that are turns of the schedule (R170) -/

/-- While the walk is about to ask at a level, the schedule gives it the answers from that level on. -/
def State.AnswersDue (p : Params) (answers : Quad ReadResult) (rest : List Turn) (s : State) : Prop :=
  s.params = p ∧
  (s.walker.fsm = .issue → s.schedule = answering (answers.toList.drop s.walker.level.val) ++ rest)

theorem quad_toList_drop {α : Type} (q : Quad α) (l : Level) :
    q.toList.drop l.val = q.get l :: q.toList.drop (l.val + 1) := by
  match l with
  | 0 => rfl
  | 1 => rfl
  | 2 => rfl
  | 3 => rfl

/-- The two turns of a level. -/
theorem run_answered {s : State} {r : ReadResult} {turns : List Turn} (hw : s.walker.fsm = .issue)
    (h : s.schedule = .proceed :: .answer r :: turns) :
    ∃ u, s.run 2 = .next u ∧ u.params = s.params ∧ u.schedule = turns ∧
      u.walker = s.walker.answered (r.reported s.params.errorType) := by
  have hissue : step s = .next s.afterTurn.issueRead := step_issue (by rw [State.turn, h]) hw
  have hanswer := step_answer (s := s.afterTurn.issueRead) (r := r) (by simp [State.turn, State.issueRead, h]) rfl
  refine ⟨_, run_two hissue hanswer, rfl, ?_, answered_of_wait _ _⟩
  simp [State.issueRead, State.afterTurn, h]

theorem answersEachLevel_due (p : Params) (answers : Quad ReadResult) (rest : List Turn) :
    AnswersEachLevel (State.AnswersDue p answers rest) fun level _ _ => (answers.get level).reported p.errorType := by
  rintro s ⟨rfl, hschedule⟩ hw
  have hschedule := hschedule hw
  rw [quad_toList_drop] at hschedule
  obtain ⟨u, hrun, hparams, hturns, hanswered⟩ := run_answered hw hschedule
  refine ⟨u, hrun, ⟨hparams, fun hissue => ?_⟩, hanswered⟩
  rw [hanswered] at hissue ⊢
  obtain ⟨hdone, -⟩ | ⟨-, -, hlevel⟩ := levelRisesByOneOrTheWalkEnds s.walker _
  · exact nomatch hissue.symm.trans hdone
  · rw [hturns, hlevel]
    rfl

/-! ### Neighbours that act at once (R67, R170, R247) -/

/-- Nothing scheduled, a reader attached, and memory, parameters and responses those of `s₀`: so a walk goes on, once nobody but the
walker, the reader and the requester acts. -/
structure State.Undisturbed (s₀ s : State) : Prop where
  schedule : s.schedule = []
  attached : s.params.readerAttached = true
  params : s.params = s₀.params
  mem : s.mem = s₀.mem
  delivered : s.ports.delivered = s₀.ports.delivered

theorem State.Undisturbed.refl {s : State} (hs : s.schedule = []) (ha : s.params.readerAttached = true) : s.Undisturbed s :=
  ⟨hs, ha, rfl, rfl, rfl⟩

/-- In WAIT the reader answers. -/
theorem step_undisturbed_wait {s₀ s : State} (h : s₀.Undisturbed s) (hw : s.walker.fsm = .wait) :
    ∃ u, step s = .next u ∧ s₀.Undisturbed u ∧
      u.walker = s.walker.answered (s₀.readU64 s.walker.curTable s.walker.curIndex) := by
  refine ⟨_, step_read (turn_of_empty s h.schedule) hw h.attached, ?_, ?_⟩
  · exact ⟨by simp [h.schedule], by simp [h.attached], by simp [h.params], by simp [h.mem],
      by simp [fetched_eq, h.delivered]⟩
  · rw [State.withWalker_walker, readU64_congr h.mem h.params]

theorem answersEachLevel_undisturbed (s₀ : State) :
    AnswersEachLevel s₀.Undisturbed fun _ cur index => s₀.readU64 cur index := by
  intro s h hw
  have hissue : step s = .next s.afterTurn.issueRead := step_issue (turn_of_empty s h.schedule) hw
  rw [afterTurn_of_empty s h.schedule] at hissue
  have hissued : s₀.Undisturbed s.issueRead := ⟨h.schedule, h.attached, h.params, h.mem, h.delivered⟩
  obtain ⟨u, hread, hu, hanswered⟩ := step_undisturbed_wait hissued rfl
  exact ⟨u, run_two hissue hread, hu, hanswered.trans (answered_of_wait _ _)⟩

/-- In DONE the requester takes result and trace. -/
theorem step_undisturbed_done {s₀ s : State} (h : s₀.Undisturbed s) (hw : s.walker.fsm = .done) :
    ∃ u, step s = .next u ∧ u.walker.fsm = .idle ∧ u.mem = s₀.mem ∧
      u.ports.delivered = s₀.ports.delivered ++ [s.walker.response] :=
  ⟨_, step_deliver (turn_of_empty s h.schedule) hw, rfl, h.mem, by simp [State.deliver, h.delivered]⟩

/-- From any state but IDLE a walk is in DONE after at most two steps for each level still to visit. -/
theorem run_undisturbed_to_done {s₀ s : State} (h : s₀.Undisturbed s) (hw : s.walker.fsm ≠ .idle) :
    ∃ k t, k ≤ 2 * (4 - s.walker.level.val) ∧ s.run k = .next t ∧ s₀.Undisturbed t ∧ t.walker.fsm = .done := by
  have hround := answersEachLevel_undisturbed s₀
  cases hf : s.walker.fsm with
  | idle => exact absurd hf hw
  | done => exact ⟨0, s, by omega, rfl, h, hf⟩
  | issue =>
    obtain ⟨n, t, hn, hrun, ht, hdone, -⟩ := run_to_done hround (4 - s.walker.level.val) (by omega) h hf
    exact ⟨2 * n, t, by omega, hrun, ht, hdone⟩
  | wait =>
    obtain ⟨u, hstep, hu, hanswered⟩ := step_undisturbed_wait h hf
    have hends := levelRisesByOneOrTheWalkEnds s.walker (s₀.readU64 s.walker.curTable s.walker.curIndex)
    rw [← hanswered] at hends
    obtain ⟨hdone, -⟩ | ⟨hissue, -, hlevel⟩ := hends
    · exact ⟨1, u, by omega, run_one hstep, hu, hdone⟩
    · obtain ⟨n, t, hn, hrun, ht, hdone, -⟩ := run_to_done hround (4 - u.walker.level.val) (by omega) hu hissue
      exact ⟨2 * n + 1, t, by omega, (run_succ _ s u hstep).trans hrun, ht, hdone⟩

end Machine

/-- Settles O37: the schedule gives each level its answer, and a walk so answered ends as the procedure does. -/
theorem walkAgreesWithTheProcedureForAnyAnswers : Obligations.WalkAgreesWithTheProcedureForAnyAnswers := by
  intro s tb va answers rest hidle hschedule
  obtain ⟨-, hparams, -, hkept, -⟩ := accept_frame s tb va
  have hstart : State.AnswersDue s.params answers rest (s.accept tb va) := by
    refine ⟨hparams, fun hissue => ?_⟩
    rw [hkept, hschedule]
    cases hm : isMalformed s.params tb va with
    | true =>
      rw [accept_malformed s tb va hm] at hissue
      exact nomatch hissue
    | false =>
      rw [accept_wellformed s tb va hm]
      rfl
  obtain ⟨n, t, hn, hrun, -, hdone, hprocedure⟩ :=
    accept_run_to_done (answersEachLevel_due s.params answers rest) hstart
  exact ⟨s.accept tb va, t, n, hn, exec_walk_idle tb va s hidle, hrun, hdone, hprocedure⟩

/-- Settles O38: the attached reader gives each level its answer, the walk ends as the procedure does, and one step hands that over. -/
theorem walkDeliversTheProcedureOverFixedMemory : Obligations.WalkDeliversTheProcedureOverFixedMemory := by
  intro s tb va hidle hschedule hattached
  obtain ⟨hmem, hparams, -, hkept, hports⟩ := accept_frame s tb va
  have hstart : s.Undisturbed (s.accept tb va) :=
    ⟨hkept.trans hschedule, hparams ▸ hattached, hparams, hmem, by rw [hports]⟩
  obtain ⟨n, t, hn, hrun, ht, hdone, hprocedure⟩ := accept_run_to_done (answersEachLevel_undisturbed s) hstart
  obtain ⟨u, hstep, hidle', hmem', hdelivered⟩ := step_undisturbed_done ht hdone
  exact ⟨s.accept tb va, u, 2 * n + 1, t.walker.response, by omega, exec_walk_idle tb va s hidle,
    (run_add 1 hrun).trans (run_one hstep), hidle', hmem', hdelivered, hprocedure⟩

/-- Settles O39: the walk is in DONE after two steps for each level still to visit, and one step hands its response over. -/
theorem everyWalkEnds : Obligations.EveryWalkEnds := by
  intro s hschedule hattached hbusy
  obtain ⟨k, t, hk, hrun, ht, hdone⟩ := run_undisturbed_to_done (.refl hschedule hattached) hbusy
  obtain ⟨u, hstep, hidle, -, hdelivered⟩ := step_undisturbed_done ht hdone
  exact ⟨k + 1, u, t.walker.response, by omega, (run_add 1 hrun).trans (run_one hstep), hidle, hdelivered⟩

end Sys2Proof
end

section
/-! PROOFS. The instances of the platform (spec/60_exceptions.md R211): no step but a turn to another instance reads or writes the others,
and such a turn makes two instances change places. -/

namespace Sys2Proof

namespace Machine

/-! ### Other instances in the place of the others (R211) -/

/-- The state with the other instances replaced. -/
def State.withOthers (s : State) (os : List Ttw) : State := { s with others := os }

@[simp] theorem withOthers_others (s : State) (os : List Ttw) : (s.withOthers os).others = os := rfl

@[simp] theorem withOthers_self (s : State) : s.withOthers s.others = s := rfl

/-- The outcome with its next state, if it has one, changed. -/
def mapNext (f : State → State) : Host.Outcome State Fault Refusal → Host.Outcome State Fault Refusal
  | .next t => .next (f t)
  | .fault e => .fault e
  | .refused r => .refused r

@[simp] theorem mapNext_next (f : State → State) (t : State) : mapNext f (.next t) = .next (f t) := rfl

@[simp] theorem mapNext_refused (f : State → State) (r : Refusal) : mapNext f (.refused r) = .refused r := rfl

/-- Under one guard, outcomes that a change of the state relates stay related. -/
theorem mapNext_guarded {c : Prop} [Decidable c] {f : State → State} {o o' : Host.Outcome State Fault Refusal} {r : Refusal}
    (h : o' = mapNext f o) : (if c then o' else .refused r) = mapNext f (if c then o else .refused r) := by
  rw [apply_ite (mapNext f), mapNext_refused, h]

/-! ### What an instruction reads (R211) -/

theorem fetch_withOthers (s : State) (os : List Ttw) : (s.withOthers os).fetch = s.fetch := rfl

theorem fetched_withOthers (s : State) (os : List Ttw) : (s.withOthers os).fetched = s.fetched.withOthers os := by
  rw [fetched_eq, fetched_eq]
  rfl

theorem presentLines_withOthers (entry : AssertedEntry) (l : PermLines) (s : State) (os : List Ttw) :
    presentLines entry l (s.withOthers os) = mapNext (·.withOthers os) (presentLines entry l s) :=
  mapNext_guarded rfl

theorem accept_withOthers (s : State) (os : List Ttw) (tb va : Word64) :
    (s.withOthers os).accept tb va = (s.accept tb va).withOthers os := by
  rw [State.accept, State.accept, apply_ite (State.withOthers · os)]
  rfl

theorem takeAnswer_withOthers (s : State) (os : List Ttw) (r : ReadResult) :
    (s.withOthers os).takeAnswer r = (s.takeAnswer r).withOthers os := by
  rw [State.takeAnswer, State.takeAnswer, apply_ite (State.withOthers · os)]
  rfl

theorem exec_walk_withOthers (tb va : Word64) (s : State) (os : List Ttw) :
    exec (.walk tb va) (s.withOthers os) = mapNext (·.withOthers os) (exec (.walk tb va) s) := by
  by_cases h : s.walker.fsm = .idle
  · rw [exec_walk_idle tb va s h, exec_walk_idle tb va (s.withOthers os) h, accept_withOthers, mapNext_next]
  · rw [exec_walk_busy tb va s h, exec_walk_busy tb va (s.withOthers os) h]
    rfl

theorem exec_readU64_withOthers (tb : Word64) (ix : Index) (s : State) (os : List Ttw) :
    exec (.readU64 tb ix) (s.withOthers os) = mapNext (·.withOthers os) (exec (.readU64 tb ix) s) := by
  cases h : s.walker.awaits tb ix with
  | true =>
    rw [exec_readU64_awaited tb ix s h, exec_readU64_awaited tb ix (s.withOthers os) h]
    rfl
  | false =>
    rw [exec_readU64_other tb ix s h, exec_readU64_other tb ix (s.withOthers os) h]
    rfl

/-- No instruction reads or writes another instance. -/
theorem exec_withOthers (i : Instr) (s : State) (os : List Ttw) :
    exec i (s.withOthers os) = mapNext (·.withOthers os) (exec i s) := by
  cases i with
  | decompose va => rfl
  | classifyInvalid entry level => exact mapNext_guarded rfl
  | classifyBlock entry level => exact mapNext_guarded rfl
  | classifyTable entry level => exact mapNext_guarded rfl
  | classifyPage entry level => exact mapNext_guarded rfl
  | decodePermissions entry level => exact mapNext_guarded rfl
  | permUxnClear entry => exact presentLines_withOthers entry _ s os
  | permPxnClear entry => exact presentLines_withOthers entry _ s os
  | permAp0 entry => exact mapNext_guarded (presentLines_withOthers entry _ s os)
  | permAp1 entry => exact mapNext_guarded (presentLines_withOthers entry _ s os)
  | permAp2 entry => exact mapNext_guarded (presentLines_withOthers entry _ s os)
  | permAp3 entry => exact mapNext_guarded (presentLines_withOthers entry _ s os)
  | walk tb va => exact exec_walk_withOthers tb va s os
  | readU64 tb ix => exact exec_readU64_withOthers tb ix s os

/-! ### What a turn and a step read (R211) -/

theorem act_proceed_withOthers (s : State) (os : List Ttw) :
    (s.withOthers os).act .proceed = mapNext (·.withOthers os) (s.act .proceed) := by
  by_cases hi : s.walker.fsm = .issue
  · rw [act_proceed_issue hi, act_proceed_issue (s := s.withOthers os) hi]
    rfl
  by_cases hd : s.walker.fsm = .done
  · rw [act_proceed_done hd, act_proceed_done (s := s.withOthers os) hd]
    rfl
  · rw [act_proceed_other hi hd, act_proceed_other (s := s.withOthers os) hi hd, mapNext_next]

/-- Of the turns without a word, only the one to another instance reads or writes the others. -/
theorem act_withOthers {u : Turn} (hu : ∀ k, u ≠ .select k) (s : State) (os : List Ttw) :
    (s.withOthers os).act u = mapNext (·.withOthers os) (s.act u) := by
  cases u with
  | proceed => exact act_proceed_withOthers s os
  | answer r => exact congrArg Host.Outcome.next (takeAnswer_withOthers s os (r.reported s.params.errorType))
  | select k => exact absurd rfl (hu k)
  | hold => rfl
  | operate port word => rfl
  | lateAnswer r => rfl
  | agentWrite a bytes => rfl
  | agentErase a count => rfl
  | reset => rfl

/-- A step that is no turn to another instance gives, whatever the others are, the same outcome but for them. -/
theorem step_withOthers {s : State} (hu : ∀ k, s.turn ≠ .select k) (os : List Ttw) :
    step (s.withOthers os) = mapNext (·.withOthers os) (step s) := by
  have hfetch := fetch_withOthers s os
  cases hf : s.fetch with
  | none =>
    rw [step_of_no_fetch s hf, step_of_no_fetch (s.withOthers os) (hfetch.trans hf)]
    exact act_withOthers hu s.afterTurn os
  | some presented =>
    obtain ⟨p, bs⟩ := presented
    cases hd : decode p bs with
    | ok i =>
      rw [step_of_fetch s hf hd, step_of_fetch (s.withOthers os) (hfetch.trans hf) hd, fetched_withOthers, exec_withOthers]
    | error e =>
      rw [step_of_undecodable s hf hd, step_of_undecodable (s.withOthers os) (hfetch.trans hf) hd, mapNext_refused]

/-- Such a step leaves the others as they are: with its own others put in their place it is the same step. -/
theorem step_keeps_others {s t : State} (hu : ∀ k, s.turn ≠ .select k) (h : step s = .next t) : t.others = s.others := by
  have hself := step_withOthers hu s.others
  rw [withOthers_self, h, mapNext_next, Host.Outcome.next.injEq] at hself
  rw [hself, withOthers_others]

/-! ### A turn to another instance (R211) -/

theorem act_select_absent {s : State} {k : Nat} (h : s.others[k]? = none) :
    s.act (.select k) = .fault (.noSuchWalker k) := by
  simp [State.act, h]

end Machine

open Machine

/-- Settles O41: with other instances in their place a step has the same outcome but for them, and so leaves its own as they are. -/
theorem instancesShareNothing : Obligations.InstancesShareNothing := by
  intro s others hu
  have hothers := step_withOthers hu others
  exact ⟨fun t h => ⟨step_keeps_others hu h, by rwa [h] at hothers⟩, fun r h => by rwa [h] at hothers⟩

/-- Settles O42: the turn presents no word, so the step is the change of places, or the fault where no instance has the number. -/
theorem selectChangesPlaces : Obligations.SelectChangesPlaces := by
  intro s k hturn
  have hstep : step s = s.afterTurn.act (.select k) := step_of_wordless_turn hturn nofun nofun
  exact ⟨fun other h => hstep.trans (act_select h), fun h => hstep.trans (act_select_absent h)⟩

end Sys2Proof
end

section
/-! PROOFS. Reset in mid-walk (spec/70_reset_and_hazards.md, R231). -/

namespace Sys2Proof

open Machine

namespace Machine

/-- A reset turn presents no word, so the step is the reset of the instance (R230, R231). -/
theorem step_reset {s : State} (h : s.turn = .reset) : step s = .next s.afterTurn.resetInstance :=
  step_of_wordless_turn h nofun nofun

end Machine

/-- Settles O33: the instance's registers and ports are those of reset, but for the responses already taken, and IDLE awaits no read. -/
theorem resetAbandonsTheWalk : Obligations.ResetAbandonsTheWalk := by
  intro s hturn
  have hawaits : Walker.reset.outstanding = none := outstanding_none _ nofun
  exact ⟨_, step_reset hturn, rfl, rfl, hawaits, rfl, rfl, rfl, rfl, rfl⟩

end Sys2Proof
end
